-- ==== Sys2Proof/Word.lean ====
section
/-! DEFINITION. The data the block works on: bytes, 16-bit numbers, and the byte strings of fixed length (four,
eight and sixteen bytes). Rules 00_scope.md R8, R9. Operations on them stand in Sys2Proof/Machine/Bytes.lean. -/

namespace Sys2Proof

/-- One byte (R8: bit 0 is the least significant bit). -/
abbrev Byte := BitVec 8

/-- A 16-bit number: DLEN, FLEN, OPOFF, OPLEN, FCS (10_state.md R34 to R38). -/
abbrev Half := BitVec 16

/-- A byte string of any length, byte 0 first (R9). -/
abbrev Bytes := List Byte

/-- Four bytes in string order: an AES key word `w[i]` and a column of the AES state (43_aes.md R151). -/
structure Quad where
  b0 : Byte
  b1 : Byte
  b2 : Byte
  b3 : Byte
deriving DecidableEq, Repr, Inhabited

/-- Eight bytes in string order: a random challenge, RND_A or RND_B (44_security_context.md R181). -/
structure Rnd where
  q0 : Quad
  q1 : Quad
deriving DecidableEq, Repr, Inhabited

/-- Sixteen bytes in string order: an AES block, a key, a MAC, a cryptogram. Byte `r + 4*c` of the string is
byte `r` of `q<c>`, which is row `r`, column `c` of the AES state (43_aes.md R151). -/
structure Block where
  q0 : Quad
  q1 : Quad
  q2 : Quad
  q3 : Quad
deriving DecidableEq, Repr, Inhabited

end Sys2Proof
end

