-- ==== Sys2Proof/Config.lean ====
section
/-! DEFINITION. What is fixed for a block: the parameters of 00_scope.md R6. The ones the spec gives a value are
definitions; the OPEN ones are constants with no body, so that nothing can be proved of their values. LATENCY, which is
OPEN too, is data in State (log 2). -/

namespace Sys2Proof.Config

/-- `DBUF_SIZE` (R6, decision D6). -/
def dbufSize : Nat := 1024

/-- `FBUF_SIZE` (R6, decision D6). -/
def fbufSize : Nat := 2048

/-- The number of window offsets: `HOST_ADDR_BITS` = 12, so 0x000-0xFFF (R6, 20_memory.md R60). -/
def windowSize : Nat := 0x1000

/-- The window offset of DBUF[0] (10_state.md R51). -/
def dbufBase : Nat := 0x400

/-- The window offset of FBUF[0] (10_state.md R52). -/
def fbufBase : Nat := 0x800

/-- `SOM`, the start-of-message byte (30_encoding.md R90). -/
def som : Byte := 0x53

/-- `MAC_PAD_ALIGNED`: whether a block-aligned non-empty MAC input is padded too (R6, decision D14: it is not; log 13). -/
def macPadAligned : Bool := false

/-- `DEFAULT_KEY` = 30 31 ... 3F (R6, decision D32; log 14). -/
def defaultKey : Block :=
  ⟨⟨0x30, 0x31, 0x32, 0x33⟩, ⟨0x34, 0x35, 0x36, 0x37⟩, ⟨0x38, 0x39, 0x3A, 0x3B⟩, ⟨0x3C, 0x3D, 0x3E, 0x3F⟩⟩

/-- `BUF_INIT` (OPEN; 70_reset_and_hazards.md R311): in each life, the byte each buffer byte holds at power-on, by its window
offset. A free value (logs 4, 22). -/
opaque bufInit : Nat → Nat → Byte

/-- `RNG` (OPEN; 10_state.md R53(c), 70_reset_and_hazards.md R312): in each life, the eight bytes of the
random source's n-th draw. A free value (logs 5, 22). -/
opaque rngDraw : Nat → Nat → Rnd

/-- In each life, the byte that the n-th free host read made while BUSY returns (20_memory.md R70: "a free draw"). A free value
(logs 6, 22). -/
opaque busyByte : Nat → Nat → Byte

/-- `HOST_BASE` (OPEN; 20_memory.md R60): where the window sits in the host's address map. Nothing in the block depends
on it (log 12). -/
opaque hostBase : Nat

/-- `HOST_IRQ_LINE` (OPEN; 60_exceptions.md R285): where the platform wires IRQ. Nothing in the block depends on it
(log 12). -/
opaque hostIrqLine : Nat

/-- `HOST_ACCESS_CONTROL` (OPEN; 60_exceptions.md R286): whether the platform lets bus master `n` reach the window.
Nothing in the block depends on it; the model's accesses are those that did reach it (log 12). -/
opaque hostAccessControl : Nat → Bool

end Sys2Proof.Config
end

