-- ==== Sys2Proof/Syntax.lean ====
section
/-! DEFINITION. The instructions of the block, one constructor for each row of spec/opcode_table.json (30_encoding.md R84),
and the host's accesses to the window with the host-program notation of R87. -/

namespace Sys2Proof

/-- The 31 instructions (30_encoding.md R84). No instruction has an operand field (R80, R82): every operand is a register
or buffer named by the instruction's rule. -/
inductive Instr where
  /-- 0x00 NOP (R112): no operation. -/
  | nop
  /-- 0x01 SRESET (R113): soft reset. -/
  | sreset
  /-- 0x10 CRC16 (R122): compute CRC-16 over a span. -/
  | crc16
  /-- 0x11 CKSUM8 (R123): compute the 8-bit checksum over a span. -/
  | cksum8
  /-- 0x12 VCRC16 (R124): verify a span that ends in its CRC-16. -/
  | vcrc16
  /-- 0x13 VCKSUM8 (R125): verify a span that ends in its checksum. -/
  | vcksum8
  /-- 0x20 AESE.KEY (R161): encrypt BLK with KEY. -/
  | aeseKey
  /-- 0x21 AESE.ENC (R161): encrypt BLK with S_ENC. -/
  | aeseEnc
  /-- 0x22 AESE.MAC1 (R161): encrypt BLK with S_MAC1. -/
  | aeseMac1
  /-- 0x23 AESE.MAC2 (R161): encrypt BLK with S_MAC2. -/
  | aeseMac2
  /-- 0x24 AESD.KEY (R162): decrypt BLK with KEY. -/
  | aesdKey
  /-- 0x25 AESD.ENC (R162): decrypt BLK with S_ENC. -/
  | aesdEnc
  /-- 0x26 AESD.MAC1 (R162): decrypt BLK with S_MAC1. -/
  | aesdMac1
  /-- 0x27 AESD.MAC2 (R162): decrypt BLK with S_MAC2. -/
  | aesdMac2
  /-- 0x30 PAD (R141): pad DBUF data in place. -/
  | pad
  /-- 0x31 UNPAD (R142): strip padding by scanning from the end. -/
  | unpad
  /-- 0x40 SCRESET (R180): reset the Security Context. -/
  | screset
  /-- 0x41 DERIVE (R182): derive the session keys. -/
  | derive
  /-- 0x42 CRYPT (R183): compute both cryptograms. -/
  | crypt
  /-- 0x43 VCCRYPT (R184): verify the received client cryptogram. -/
  | vccrypt
  /-- 0x44 VSCRYPT (R185): verify the received server cryptogram and establish. -/
  | vscrypt
  /-- 0x45 ADOPTRMAC (R186): adopt the received initial R-MAC and establish. -/
  | adoptrmac
  /-- 0x50 MACC (R216): session MAC, command direction. -/
  | macc
  /-- 0x51 MACR (R216): session MAC, reply direction. -/
  | macr
  /-- 0x60 ENCC (R217): CBC-encrypt DBUF, command direction. -/
  | encc
  /-- 0x61 ENCR (R217): CBC-encrypt DBUF, reply direction. -/
  | encr
  /-- 0x62 DECC (R218): CBC-decrypt DBUF, command direction. -/
  | decc
  /-- 0x63 DECR (R218): CBC-decrypt DBUF, reply direction. -/
  | decr
  /-- 0x70 BUILD (R242): build a frame with the SCS type in register SCS. -/
  | build
  /-- 0x71 BUILDA (R243): build a frame with the SCS type chosen from the channel state. -/
  | builda
  /-- 0x80 PARSE (R250): validate and decode the frame in FBUF. -/
  | parse
deriving DecidableEq, Repr

/-- Every instruction, in the table's order. -/
def Instr.all : List Instr :=
  [.nop, .sreset, .crc16, .cksum8, .vcrc16, .vcksum8, .aeseKey, .aeseEnc, .aeseMac1, .aeseMac2, .aesdKey, .aesdEnc, .aesdMac1, .aesdMac2, .pad, .unpad,
   .screset, .derive, .crypt, .vccrypt, .vscrypt, .adoptrmac, .macc, .macr, .encc, .encr, .decc, .decr, .build, .builda, .parse]

/-- One host access to the window, always of one byte (20_memory.md R61; 30_encoding.md R87 `rd`, `wr`). -/
inductive HostAccess where
  /-- `rd off`: the bus transaction (R, off). -/
  | rd (off : Nat)
  /-- `wr off, v`: the bus transaction (W, off, v). -/
  | wr (off : Nat) (v : Byte)
deriving DecidableEq, Repr

namespace HostAccess

/-- R87 `wr16 off, v`: the low byte, then the high byte. -/
def wr16 (off : Nat) (v : Half) : List HostAccess := [.wr off (v.setWidth 8), .wr (off + 1) ((v >>> 8).setWidth 8)]

/-- R87 `wrs off, b0 b1 ...`: a byte string at rising offsets. -/
def wrs (off : Nat) : Bytes → List HostAccess
  | [] => []
  | b :: bs => .wr off b :: wrs (off + 1) bs

/-- R87 `rds off, n`: n reads at rising offsets. -/
def rds (off : Nat) : Nat → List HostAccess
  | 0 => []
  | n + 1 => .rd off :: rds (off + 1) n

/-- R87 `clr`: clears DONE, ERR and OVR. -/
def clr : List HostAccess := [.wr 0x002 0x0E]

end HostAccess

end Sys2Proof
end

