-- ==== Sys2Proof/WellFormed.lean ====
section
/-! DEFINITION. Which opcode bytes, instructions and host accesses are well formed. An opcode byte is judged by the FORMATS of
30_encoding.md R81 (which bits must be 0, which function values exist), written apart from the decoder's table. -/

namespace Sys2Proof

/-- The instruction formats of R81. -/
inductive Format where
  | n  -- no fields: the function bits select the instruction
  | c  -- check: V in bit 1, A in bit 0
  | a  -- AES: D in bit 2, K in bits 1:0
  | m  -- MAC: R in bit 0
  | x  -- CBC: X in bit 1, R in bit 0
  | b  -- build: U in bit 0
deriving DecidableEq, Repr

/-- R81: the format of each group (bits 7:4), where the group has one. -/
def formatOf (group : Nat) : Option Format :=
  match group with
  | 0x0 => some .n
  | 0x1 => some .c
  | 0x2 => some .a
  | 0x3 => some .n
  | 0x4 => some .n
  | 0x5 => some .m
  | 0x6 => some .x
  | 0x7 => some .b
  | 0x8 => some .n
  | _ => none

/-- R83: how many function values a group of format N defines, from 0 up. -/
def formatNCount (group : Nat) : Nat :=
  match group with
  | 0x0 => 2
  | 0x3 => 2
  | 0x4 => 6
  | 0x8 => 1
  | _ => 0

/-- R81: the bits a format shows as 0 are 0 in the function bits `f`. -/
def functionWellFormed (fmt : Format) (group f : Nat) : Bool :=
  match fmt with
  | .n => f < formatNCount group
  | .c => f < 4
  | .a => f < 8
  | .m => f < 2
  | .x => f < 4
  | .b => f < 2

/-- R81, R83: the byte has a format's form. -/
def opcodeWellFormed (b : Byte) : Bool :=
  match formatOf (b.toNat / 16) with
  | some fmt => functionWellFormed fmt (b.toNat / 16) (b.toNat % 16)
  | none => false

/-- An instruction as syntax is always well formed: it has no operand field (R80, R82). -/
def Instr.wellFormed (_ : Instr) : Bool := true

/-- A host access exists only at the window's offsets, 0x000-0xFFF (20_memory.md R61). -/
def HostAccess.wellFormed : HostAccess → Bool
  | .rd off => off < Config.windowSize
  | .wr off _ => off < Config.windowSize

end Sys2Proof
end

