-- ==== Sys2Proof/Decode.lean ====
section
/-! DEFINITION. The opcode decoder and encoder (30_encoding.md R80 to R86). An instruction is one byte; every byte value that
R84 does not list is refused (R85: the block issues it and completes it with ILLEGAL). -/

namespace Sys2Proof

/-- Why the decoder gives no instruction. -/
inductive DecodeError where
  /-- There is no byte. Raised by `decode` on an empty string; safe, since an issue always carries a byte. -/
  | noByte
  /-- The byte is none of the 31 opcodes of R84 (R85). Raised by `decode`; the step completes it with ILLEGAL. -/
  | undefinedOpcode (b : Byte)
deriving DecidableEq, Repr

/-- R81, R83, R84: the instruction an opcode byte stands for, by its group (bits 7:4) and function (bits 3:0). -/
def decodeByte (b : Byte) : Option Instr :=
  match b.toNat / 16, b.toNat % 16 with
  | 0x0, 0x0 => some .nop
  | 0x0, 0x1 => some .sreset
  | 0x1, 0x0 => some .crc16
  | 0x1, 0x1 => some .cksum8
  | 0x1, 0x2 => some .vcrc16
  | 0x1, 0x3 => some .vcksum8
  | 0x2, 0x0 => some .aeseKey
  | 0x2, 0x1 => some .aeseEnc
  | 0x2, 0x2 => some .aeseMac1
  | 0x2, 0x3 => some .aeseMac2
  | 0x2, 0x4 => some .aesdKey
  | 0x2, 0x5 => some .aesdEnc
  | 0x2, 0x6 => some .aesdMac1
  | 0x2, 0x7 => some .aesdMac2
  | 0x3, 0x0 => some .pad
  | 0x3, 0x1 => some .unpad
  | 0x4, 0x0 => some .screset
  | 0x4, 0x1 => some .derive
  | 0x4, 0x2 => some .crypt
  | 0x4, 0x3 => some .vccrypt
  | 0x4, 0x4 => some .vscrypt
  | 0x4, 0x5 => some .adoptrmac
  | 0x5, 0x0 => some .macc
  | 0x5, 0x1 => some .macr
  | 0x6, 0x0 => some .encc
  | 0x6, 0x1 => some .encr
  | 0x6, 0x2 => some .decc
  | 0x6, 0x3 => some .decr
  | 0x7, 0x0 => some .build
  | 0x7, 0x1 => some .builda
  | 0x8, 0x0 => some .parse
  | _, _ => none

/-- R80: the instruction at the head of a byte string, and the bytes after it. Total: it answers for any bytes. -/
def decode : Bytes → Except DecodeError (Instr × Bytes)
  | [] => .error .noByte
  | b :: rest =>
    match decodeByte b with
    | some i => .ok (i, rest)
    | none => .error (.undefinedOpcode b)

/-- R84: the opcode byte of an instruction. -/
def opcode : Instr → Byte
  | .nop => 0x00
  | .sreset => 0x01
  | .crc16 => 0x10
  | .cksum8 => 0x11
  | .vcrc16 => 0x12
  | .vcksum8 => 0x13
  | .aeseKey => 0x20
  | .aeseEnc => 0x21
  | .aeseMac1 => 0x22
  | .aeseMac2 => 0x23
  | .aesdKey => 0x24
  | .aesdEnc => 0x25
  | .aesdMac1 => 0x26
  | .aesdMac2 => 0x27
  | .pad => 0x30
  | .unpad => 0x31
  | .screset => 0x40
  | .derive => 0x41
  | .crypt => 0x42
  | .vccrypt => 0x43
  | .vscrypt => 0x44
  | .adoptrmac => 0x45
  | .macc => 0x50
  | .macr => 0x51
  | .encc => 0x60
  | .encr => 0x61
  | .decc => 0x62
  | .decr => 0x63
  | .build => 0x70
  | .builda => 0x71
  | .parse => 0x80

/-- The bytes of an instruction: its opcode byte alone (R80). -/
def encode (i : Instr) : Bytes := [opcode i]

/-- The instruction the decoder reads from a table word: bit 0 of `w` is the least significant bit of the opcode byte. Every
row of the table has 8 bits, so a word of another width, or with bits above the first byte, is no instruction. -/
def decodeTableWord (nbits w : Nat) : Option Instr :=
  if nbits = 8 ∧ w < 256 then
    match decode [BitVec.ofNat 8 w] with
    | .ok (i, _) => some i
    | .error _ => none
  else none

end Sys2Proof
end

