-- ==== Sys2Proof/Machine/Bytes.lean ====
section
/-! DEFINITION. Byte strings of fixed length: reading and replacing byte i, XOR, complement, and the passage to and from
byte strings of any length (00_scope.md R9; 20_memory.md R62, R63). -/

namespace Sys2Proof.Machine

/-- Bits 7:0 of a 16-bit number (20_memory.md R62). -/
def loByte (h : Half) : Byte := h.setWidth 8

/-- Bits 15:8 of a 16-bit number. -/
def hiByte (h : Half) : Byte := (h >>> 8).setWidth 8

/-- The 16-bit number with the given low and high bytes (little-endian, R62). -/
def mkHalf (lo hi : Byte) : Half := hi ++ lo

/-- Bit `n` of a byte set to `v`. -/
def setBit (b : Byte) (n : Nat) (v : Bool) : Byte :=
  if v then b ||| (1#8 <<< n) else b &&& ~~~(1#8 <<< n)

end Sys2Proof.Machine

namespace Sys2Proof

/-- Byte `i` of four (0 past the end). -/
def Quad.get (q : Quad) : Nat → Byte
  | 0 => q.b0
  | 1 => q.b1
  | 2 => q.b2
  | 3 => q.b3
  | _ => 0

/-- Byte `i` of four replaced (nothing past the end). -/
def Quad.set (q : Quad) (v : Byte) : Nat → Quad
  | 0 => { q with b0 := v }
  | 1 => { q with b1 := v }
  | 2 => { q with b2 := v }
  | 3 => { q with b3 := v }
  | _ => q

/-- Bytewise XOR (R9). -/
def Quad.xor (p q : Quad) : Quad := ⟨p.b0 ^^^ q.b0, p.b1 ^^^ q.b1, p.b2 ^^^ q.b2, p.b3 ^^^ q.b3⟩

/-- A function applied to each byte. -/
def Quad.map (f : Byte → Byte) (q : Quad) : Quad := ⟨f q.b0, f q.b1, f q.b2, f q.b3⟩

/-- The four bytes as a byte string. -/
def Quad.toBytes (q : Quad) : Bytes := [q.b0, q.b1, q.b2, q.b3]

/-- 0x00^4. -/
def Quad.zero : Quad := ⟨0, 0, 0, 0⟩

/-- The first four bytes of a byte string (0x00 where it is shorter). -/
def Quad.ofBytes (d : Bytes) : Quad := ⟨d.getD 0 0, d.getD 1 0, d.getD 2 0, d.getD 3 0⟩

/-- Byte `i` of eight (0 past the end). -/
def Rnd.get (r : Rnd) (i : Nat) : Byte :=
  match i / 4 with
  | 0 => r.q0.get (i % 4)
  | 1 => r.q1.get (i % 4)
  | _ => 0

/-- Byte `i` of eight replaced (nothing past the end). -/
def Rnd.set (r : Rnd) (v : Byte) (i : Nat) : Rnd :=
  match i / 4 with
  | 0 => { r with q0 := r.q0.set v (i % 4) }
  | 1 => { r with q1 := r.q1.set v (i % 4) }
  | _ => r

/-- The eight bytes as a byte string. -/
def Rnd.toBytes (r : Rnd) : Bytes := r.q0.toBytes ++ r.q1.toBytes

/-- 0x00^8. -/
def Rnd.zero : Rnd := ⟨.zero, .zero⟩

/-- Byte `i` of sixteen (0 past the end). -/
def Block.get (b : Block) (i : Nat) : Byte :=
  match i / 4 with
  | 0 => b.q0.get (i % 4)
  | 1 => b.q1.get (i % 4)
  | 2 => b.q2.get (i % 4)
  | 3 => b.q3.get (i % 4)
  | _ => 0

/-- Byte `i` of sixteen replaced (nothing past the end). -/
def Block.set (b : Block) (v : Byte) (i : Nat) : Block :=
  match i / 4 with
  | 0 => { b with q0 := b.q0.set v (i % 4) }
  | 1 => { b with q1 := b.q1.set v (i % 4) }
  | 2 => { b with q2 := b.q2.set v (i % 4) }
  | 3 => { b with q3 := b.q3.set v (i % 4) }
  | _ => b

/-- Bytewise XOR (R9 `a ⊕ b`). -/
def Block.xor (a b : Block) : Block := ⟨a.q0.xor b.q0, a.q1.xor b.q1, a.q2.xor b.q2, a.q3.xor b.q3⟩

/-- A function applied to each byte. -/
def Block.map (f : Byte → Byte) (b : Block) : Block := ⟨b.q0.map f, b.q1.map f, b.q2.map f, b.q3.map f⟩

/-- Bytewise complement (R9 `~b`: each byte x becomes 0xFF - x). -/
def Block.compl (b : Block) : Block := b.map (~~~ ·)

/-- 0x00^16. -/
def Block.zero : Block := ⟨.zero, .zero, .zero, .zero⟩

/-- The sixteen bytes as a byte string. -/
def Block.toBytes (b : Block) : Bytes := b.q0.toBytes ++ (b.q1.toBytes ++ (b.q2.toBytes ++ b.q3.toBytes))

/-- The first sixteen bytes of a byte string (0x00 where it is shorter). -/
def Block.ofBytes (d : Bytes) : Block :=
  ⟨Quad.ofBytes d, Quad.ofBytes (d.drop 4), Quad.ofBytes (d.drop 8), Quad.ofBytes (d.drop 12)⟩

/-- Two random challenges one after the other, `a ‖ b` (44_security_context.md R183). -/
def Block.ofRnds (a b : Rnd) : Block := ⟨a.q0, a.q1, b.q0, b.q1⟩

end Sys2Proof
end

