-- ==== Sys2Proof/Machine/Cipher.lean ====
section
/-! DEFINITION. The AES-128 block cipher, encryption and decryption (43_aes.md R150 to R160). A `Block` is the AES state:
`q<c>` is its column c, and byte r of a column is row r (R151). -/

namespace Sys2Proof.Machine

/-- R152: multiplication by x in GF(2^8). -/
def xtime (a : Byte) : Byte := (a <<< 1) ^^^ (if a.getLsbD 7 then 0x1B else 0x00)

/-- `xtime` applied `j` times. -/
def xtimes (a : Byte) : Nat → Byte
  | 0 => a
  | j + 1 => xtime (xtimes a j)

/-- The XOR of `xtime^j(a)` over the set bits j of `b` below `n`. -/
def gmulBelow (a b : Byte) : Nat → Byte
  | 0 => 0
  | n + 1 => gmulBelow a b n ^^^ (if b.getLsbD n then xtimes a n else 0)

/-- R152: the product `a • b` in GF(2^8). -/
def gmul (a b : Byte) : Byte := gmulBelow a b 8

/-- 43_aes.md R153: the table S, a row for each high nibble, a column for each low nibble. -/
def sboxRows : List (List Byte) :=
  [ [0x63, 0x7C, 0x77, 0x7B, 0xF2, 0x6B, 0x6F, 0xC5, 0x30, 0x01, 0x67, 0x2B, 0xFE, 0xD7, 0xAB, 0x76],
    [0xCA, 0x82, 0xC9, 0x7D, 0xFA, 0x59, 0x47, 0xF0, 0xAD, 0xD4, 0xA2, 0xAF, 0x9C, 0xA4, 0x72, 0xC0],
    [0xB7, 0xFD, 0x93, 0x26, 0x36, 0x3F, 0xF7, 0xCC, 0x34, 0xA5, 0xE5, 0xF1, 0x71, 0xD8, 0x31, 0x15],
    [0x04, 0xC7, 0x23, 0xC3, 0x18, 0x96, 0x05, 0x9A, 0x07, 0x12, 0x80, 0xE2, 0xEB, 0x27, 0xB2, 0x75] ]
  ++ [ [0x09, 0x83, 0x2C, 0x1A, 0x1B, 0x6E, 0x5A, 0xA0, 0x52, 0x3B, 0xD6, 0xB3, 0x29, 0xE3, 0x2F, 0x84],
    [0x53, 0xD1, 0x00, 0xED, 0x20, 0xFC, 0xB1, 0x5B, 0x6A, 0xCB, 0xBE, 0x39, 0x4A, 0x4C, 0x58, 0xCF],
    [0xD0, 0xEF, 0xAA, 0xFB, 0x43, 0x4D, 0x33, 0x85, 0x45, 0xF9, 0x02, 0x7F, 0x50, 0x3C, 0x9F, 0xA8],
    [0x51, 0xA3, 0x40, 0x8F, 0x92, 0x9D, 0x38, 0xF5, 0xBC, 0xB6, 0xDA, 0x21, 0x10, 0xFF, 0xF3, 0xD2] ]
  ++ [ [0xCD, 0x0C, 0x13, 0xEC, 0x5F, 0x97, 0x44, 0x17, 0xC4, 0xA7, 0x7E, 0x3D, 0x64, 0x5D, 0x19, 0x73],
    [0x60, 0x81, 0x4F, 0xDC, 0x22, 0x2A, 0x90, 0x88, 0x46, 0xEE, 0xB8, 0x14, 0xDE, 0x5E, 0x0B, 0xDB],
    [0xE0, 0x32, 0x3A, 0x0A, 0x49, 0x06, 0x24, 0x5C, 0xC2, 0xD3, 0xAC, 0x62, 0x91, 0x95, 0xE4, 0x79],
    [0xE7, 0xC8, 0x37, 0x6D, 0x8D, 0xD5, 0x4E, 0xA9, 0x6C, 0x56, 0xF4, 0xEA, 0x65, 0x7A, 0xAE, 0x08] ]
  ++ [ [0xBA, 0x78, 0x25, 0x2E, 0x1C, 0xA6, 0xB4, 0xC6, 0xE8, 0xDD, 0x74, 0x1F, 0x4B, 0xBD, 0x8B, 0x8A],
    [0x70, 0x3E, 0xB5, 0x66, 0x48, 0x03, 0xF6, 0x0E, 0x61, 0x35, 0x57, 0xB9, 0x86, 0xC1, 0x1D, 0x9E],
    [0xE1, 0xF8, 0x98, 0x11, 0x69, 0xD9, 0x8E, 0x94, 0x9B, 0x1E, 0x87, 0xE9, 0xCE, 0x55, 0x28, 0xDF],
    [0x8C, 0xA1, 0x89, 0x0D, 0xBF, 0xE6, 0x42, 0x68, 0x41, 0x99, 0x2D, 0x0F, 0xB0, 0x54, 0xBB, 0x16] ]

/-- 43_aes.md R154: the table InvS, a row for each high nibble, a column for each low nibble. -/
def invSboxRows : List (List Byte) :=
  [ [0x52, 0x09, 0x6A, 0xD5, 0x30, 0x36, 0xA5, 0x38, 0xBF, 0x40, 0xA3, 0x9E, 0x81, 0xF3, 0xD7, 0xFB],
    [0x7C, 0xE3, 0x39, 0x82, 0x9B, 0x2F, 0xFF, 0x87, 0x34, 0x8E, 0x43, 0x44, 0xC4, 0xDE, 0xE9, 0xCB],
    [0x54, 0x7B, 0x94, 0x32, 0xA6, 0xC2, 0x23, 0x3D, 0xEE, 0x4C, 0x95, 0x0B, 0x42, 0xFA, 0xC3, 0x4E],
    [0x08, 0x2E, 0xA1, 0x66, 0x28, 0xD9, 0x24, 0xB2, 0x76, 0x5B, 0xA2, 0x49, 0x6D, 0x8B, 0xD1, 0x25] ]
  ++ [ [0x72, 0xF8, 0xF6, 0x64, 0x86, 0x68, 0x98, 0x16, 0xD4, 0xA4, 0x5C, 0xCC, 0x5D, 0x65, 0xB6, 0x92],
    [0x6C, 0x70, 0x48, 0x50, 0xFD, 0xED, 0xB9, 0xDA, 0x5E, 0x15, 0x46, 0x57, 0xA7, 0x8D, 0x9D, 0x84],
    [0x90, 0xD8, 0xAB, 0x00, 0x8C, 0xBC, 0xD3, 0x0A, 0xF7, 0xE4, 0x58, 0x05, 0xB8, 0xB3, 0x45, 0x06],
    [0xD0, 0x2C, 0x1E, 0x8F, 0xCA, 0x3F, 0x0F, 0x02, 0xC1, 0xAF, 0xBD, 0x03, 0x01, 0x13, 0x8A, 0x6B] ]
  ++ [ [0x3A, 0x91, 0x11, 0x41, 0x4F, 0x67, 0xDC, 0xEA, 0x97, 0xF2, 0xCF, 0xCE, 0xF0, 0xB4, 0xE6, 0x73],
    [0x96, 0xAC, 0x74, 0x22, 0xE7, 0xAD, 0x35, 0x85, 0xE2, 0xF9, 0x37, 0xE8, 0x1C, 0x75, 0xDF, 0x6E],
    [0x47, 0xF1, 0x1A, 0x71, 0x1D, 0x29, 0xC5, 0x89, 0x6F, 0xB7, 0x62, 0x0E, 0xAA, 0x18, 0xBE, 0x1B],
    [0xFC, 0x56, 0x3E, 0x4B, 0xC6, 0xD2, 0x79, 0x20, 0x9A, 0xDB, 0xC0, 0xFE, 0x78, 0xCD, 0x5A, 0xF4] ]
  ++ [ [0x1F, 0xDD, 0xA8, 0x33, 0x88, 0x07, 0xC7, 0x31, 0xB1, 0x12, 0x10, 0x59, 0x27, 0x80, 0xEC, 0x5F],
    [0x60, 0x51, 0x7F, 0xA9, 0x19, 0xB5, 0x4A, 0x0D, 0x2D, 0xE5, 0x7A, 0x9F, 0x93, 0xC9, 0x9C, 0xEF],
    [0xA0, 0xE0, 0x3B, 0x4D, 0xAE, 0x2A, 0xF5, 0xB0, 0xC8, 0xEB, 0xBB, 0x3C, 0x83, 0x53, 0x99, 0x61],
    [0x17, 0x2B, 0x04, 0x7E, 0xBA, 0x77, 0xD6, 0x26, 0xE1, 0x69, 0x14, 0x63, 0x55, 0x21, 0x0C, 0x7D] ]

/-- An entry of a table of sixteen rows, by high and low nibble. -/
def tableEntry (rows : List (List Byte)) (x : Byte) : Byte := (rows.getD (x.toNat / 16) []).getD (x.toNat % 16) 0

/-- R153: `S[x]`. -/
def sbox (x : Byte) : Byte := tableEntry sboxRows x

/-- R154: `InvS[x]`. -/
def invSbox (x : Byte) : Byte := tableEntry invSboxRows x

/-- R153: SubBytes. -/
def subBytes (s : Block) : Block := s.map sbox

/-- R154: InvSubBytes. -/
def invSubBytes (s : Block) : Block := s.map invSbox

/-- R155: ShiftRows, `s'[r][c] = s[r][(c + r) mod 4]`. -/
def shiftRows (s : Block) : Block :=
  ⟨⟨s.q0.b0, s.q1.b1, s.q2.b2, s.q3.b3⟩, ⟨s.q1.b0, s.q2.b1, s.q3.b2, s.q0.b3⟩,
   ⟨s.q2.b0, s.q3.b1, s.q0.b2, s.q1.b3⟩, ⟨s.q3.b0, s.q0.b1, s.q1.b2, s.q2.b3⟩⟩

/-- R155: InvShiftRows, `s'[r][c] = s[r][(c - r) mod 4]`. -/
def invShiftRows (s : Block) : Block :=
  ⟨⟨s.q0.b0, s.q3.b1, s.q2.b2, s.q1.b3⟩, ⟨s.q1.b0, s.q0.b1, s.q3.b2, s.q2.b3⟩,
   ⟨s.q2.b0, s.q1.b1, s.q0.b2, s.q3.b3⟩, ⟨s.q3.b0, s.q2.b1, s.q1.b2, s.q0.b3⟩⟩

/-- A circulant mix of one column: row 0 is `k0•s0 ^ k1•s1 ^ k2•s2 ^ k3•s3`, and each next row has the coefficients
moved one place right (R156). -/
def mixColumn (k0 k1 k2 k3 : Byte) (q : Quad) : Quad :=
  ⟨gmul q.b0 k0 ^^^ gmul q.b1 k1 ^^^ gmul q.b2 k2 ^^^ gmul q.b3 k3,
   gmul q.b0 k3 ^^^ gmul q.b1 k0 ^^^ gmul q.b2 k1 ^^^ gmul q.b3 k2,
   gmul q.b0 k2 ^^^ gmul q.b1 k3 ^^^ gmul q.b2 k0 ^^^ gmul q.b3 k1,
   gmul q.b0 k1 ^^^ gmul q.b1 k2 ^^^ gmul q.b2 k3 ^^^ gmul q.b3 k0⟩

/-- A mix of each column independently. -/
def mixWith (k0 k1 k2 k3 : Byte) (s : Block) : Block :=
  ⟨mixColumn k0 k1 k2 k3 s.q0, mixColumn k0 k1 k2 k3 s.q1, mixColumn k0 k1 k2 k3 s.q2, mixColumn k0 k1 k2 k3 s.q3⟩

/-- R156: MixColumns, coefficients 2, 3, 1, 1. -/
def mixColumns (s : Block) : Block := mixWith 0x02 0x03 0x01 0x01 s

/-- R156: InvMixColumns, coefficients 0E, 0B, 0D, 09. -/
def invMixColumns (s : Block) : Block := mixWith 0x0E 0x0B 0x0D 0x09 s

/-- R158: RotWord. -/
def rotWord (q : Quad) : Quad := ⟨q.b1, q.b2, q.b3, q.b0⟩

/-- R158: SubWord. -/
def subWord (q : Quad) : Quad := q.map sbox

/-- R158: Rcon[1..10]. -/
def rcon (i : Nat) : Byte := [0x01, 0x02, 0x04, 0x08, 0x10, 0x20, 0x40, 0x80, 0x1B, 0x36].getD (i - 1) 0

/-- R158 for `i = 4j .. 4j+3`: the four words after the four words of `k`, whose first is number `4j`. -/
def nextRoundKey (j : Nat) (k : Block) : Block :=
  let w0 := k.q0.xor ((subWord (rotWord k.q3)).xor ⟨rcon j, 0, 0, 0⟩)
  let w1 := k.q1.xor w0
  let w2 := k.q2.xor w1
  ⟨w0, w1, w2, k.q3.xor w2⟩

/-- R157, R158: round key `j`, the words `w[4j] .. w[4j+3]`. -/
def roundKey (k : Block) : Nat → Block
  | 0 => k
  | j + 1 => nextRoundKey (j + 1) (roundKey k j)

/-- R159: the state after AddRoundKey(0) and the rounds 1 to n. -/
def encRounds (k p : Block) : Nat → Block
  | 0 => p.xor (roundKey k 0)
  | n + 1 => (mixColumns (shiftRows (subBytes (encRounds k p n)))).xor (roundKey k (n + 1))

/-- R159: `E(k, p)`. -/
def aesEnc (k p : Block) : Block := (shiftRows (subBytes (encRounds k p 9))).xor (roundKey k 10)

/-- R160: the state after AddRoundKey(10) and `n` rounds, which are the rounds 9 down to 10 - n. -/
def decRounds (k c : Block) : Nat → Block
  | 0 => c.xor (roundKey k 10)
  | n + 1 => invMixColumns ((invSubBytes (invShiftRows (decRounds k c n))).xor (roundKey k (9 - n)))

/-- R160: `D(k, c)`. -/
def aesDec (k c : Block) : Block := (invSubBytes (invShiftRows (decRounds k c 9))).xor (roundKey k 0)

end Sys2Proof.Machine
end

