-- ==== Sys2Proof/Machine/State.lean ====
section
/-! DEFINITION. The block's state (10_state.md R20 to R56), its state after power-on reset (70_reset_and_hazards.md R310 to
R313), the names of its registers and error codes, and the two ways a step can stop. -/

namespace Sys2Proof.Machine

/-- Why a step stops with a fault. The block has no traps (60_exceptions.md R284) and no instruction faults. -/
inductive Fault where
  /-- The host access the step would make is at an offset of 0x1000 or more, which 20_memory.md R61 says does not exist.
  Raised by `hostStep` (Machine/Window.lean). Safe: no such access reaches a block (log 15). -/
  | offsetOutsideWindow (off : Nat)
deriving DecidableEq, Repr

/-- Why a step refuses. -/
inductive Refusal where
  /-- An instruction that has no meaning yet, raised by its arm of `exec`. Safe: the machine stops. No arm raises it. -/
  | notModelled (mnemonic : String)
deriving DecidableEq, Repr

/-- The error codes of 30_encoding.md R97 other than OK; their values are `ErrCode.toByte`. -/
inductive ErrCode where
  | illegal | range | notest | notaligned | nopadmark | badscs | toolong | badsom | length | checksum | cryptmismatch
  | macmismatch
deriving DecidableEq, Repr

/-- The registers of 10_state.md R22, in the order of their offsets. -/
inductive Reg where
  | opc | ctrl | status | errcode | addr | seq | code | scs | scblen | scbdata | rxctrl
  | dlen | flen | opoff | oplen | fcs
  | key | sEnc | sMac1 | sMac2 | cmac | rmac | rndA | rndB | ccrypt | scrypt | blk
deriving DecidableEq, Repr

/-- The access classes of 10_state.md R22. -/
inductive Access where
  /-- RW: read and write (bits the register reserves stay 0). -/
  | rw
  /-- RO: host writes are ignored. -/
  | ro
  /-- WO: reads return 0x00. -/
  | wo
  /-- OPC: a read returns the last accepted opcode, a write issues (R23). -/
  | issue
  /-- STATUS: a read returns it, a write clears DONE, ERR and OVR where it holds 1 (R25). -/
  | w1c
deriving DecidableEq, Repr

/-- The directions of a MAC or of a data cipher: the R field of formats M and X (30_encoding.md R82). -/
inductive Dir where
  | command
  | reply
deriving DecidableEq, Repr

/-- The two buffers: (window offset, byte) pairs at strictly rising offsets, DBUF at 0x400-0x7FF and FBUF at 0x800-0xFFF
(20_memory.md R60). An offset that is not listed has not been written since power-on and reads as `BUF_INIT` of it
(70_reset_and_hazards.md R311; log 4). `Memory.wf` (Machine/Ops.lean) says the form holds. -/
abbrev Memory := List Host.Cell

/-- The state of the block and, in its last four fields, of the model's host side. -/
structure State where
  /-- OPC (R23): the last accepted opcode. While BUSY it is the latched opcode of the instruction in flight. -/
  opc : Byte
  /-- CTRL (R24): 0 USE_CRC, 1 ROLE, 2 IRQ_EN. -/
  ctrl : Byte
  /-- STATUS (R25): 0 BUSY, 1 DONE, 2 ERR, 3 OVR, 4 ESTABLISHED, 5 MATCH, 6 DEFKEY. -/
  status : Byte
  /-- ERRCODE (R26). -/
  errcode : Byte
  /-- ADDR (R27). -/
  addr : Byte
  /-- SEQ (R28): bits 1:0. -/
  seq : Byte
  /-- CODE (R29). -/
  code : Byte
  /-- SCS (R30). -/
  scs : Byte
  /-- SCBLEN (R31). -/
  scblen : Byte
  /-- SCBDATA (R32). -/
  scbdata : Byte
  /-- RXCTRL (R33). -/
  rxctrl : Byte
  /-- DLEN (R34). -/
  dlen : Half
  /-- FLEN (R35). -/
  flen : Half
  /-- OPOFF (R36). -/
  opoff : Half
  /-- OPLEN (R37). -/
  oplen : Half
  /-- FCS (R38). -/
  fcs : Half
  /-- KEY (R40). -/
  key : Block
  /-- S_ENC (R41). -/
  sEnc : Block
  /-- S_MAC1 (R42). -/
  sMac1 : Block
  /-- S_MAC2 (R43). -/
  sMac2 : Block
  /-- CMAC (R44). -/
  cmac : Block
  /-- RMAC (R45). -/
  rmac : Block
  /-- RND_A (R46). -/
  rndA : Rnd
  /-- RND_B (R47). -/
  rndB : Rnd
  /-- CCRYPT (R48). -/
  ccrypt : Block
  /-- SCRYPT (R49). -/
  scrypt : Block
  /-- BLK (R50). -/
  blk : Block
  /-- DBUF and FBUF (R51, R52). -/
  mem : Memory
  /-- R53(a): the cycles still to go before the instruction in flight completes; 0 when none is in flight. -/
  wait : Nat
  /-- R53(c): the random source's internal state, which only numbers its draws (log 5). -/
  rng : Nat
  /-- The model's own: the number of this life, which tells one power-on of one block from every other. The free constants take
  it, so nothing can be proved to be equal, or to differ, between two lives (log 22). -/
  life : Nat
  /-- The model's own: how many free bytes host reads made while BUSY have returned (log 6). -/
  busyReads : Nat
  /-- The model's own: LATENCY, less one, of each instruction still to be issued; 0 once the list is used up (log 2). -/
  latencies : List Nat
  /-- The model's own: the host accesses not yet made, in the host's program order (20_memory.md R68; log 1). -/
  host : List HostAccess
  /-- The model's own: what the host's reads returned, (offset, byte), newest first (log 16). -/
  answers : List (Nat × Byte)
deriving DecidableEq, Repr

/-- The state after a power-on reset, the one numbered `life`: R310, R22's reset column. The buffers list nothing, so every byte
of them reads as `BUF_INIT` (R311), and the random source's first draw is a free value of this life (R312). -/
def State.powerOn (life : Nat) : State where
  life := life
  opc := 0x00
  ctrl := 0x01
  status := 0x00
  errcode := 0x00
  addr := 0x00
  seq := 0x00
  code := 0x00
  scs := 0x00
  scblen := 0x02
  scbdata := 0x00
  rxctrl := 0x00
  dlen := 0x0000
  flen := 0x0000
  opoff := 0x0000
  oplen := 0x0000
  fcs := 0x0000
  key := .zero
  sEnc := .zero
  sMac1 := .zero
  sMac2 := .zero
  cmac := .zero
  rmac := .zero
  rndA := .zero
  rndB := .zero
  ccrypt := .zero
  scrypt := .zero
  blk := .zero
  mem := []
  wait := 0
  rng := 0
  busyReads := 0
  latencies := []
  host := []
  answers := []

/-- The state after reset: the power-on numbered 0. A second block, or a second power-on of this one, has another number
(log 22). -/
def State.reset : State := State.powerOn 0

end Sys2Proof.Machine
end

