-- ==== Sys2Proof/Machine/Flags.lean ====
section
/-! DEFINITION. The fields of STATUS, CTRL and SEQ, the IRQ output, and the values of the error codes (10_state.md R24, R25,
R28, R54; 30_encoding.md R97; 60_exceptions.md R285). -/

namespace Sys2Proof.Machine

/-- STATUS.BUSY (R25, bit 0). -/
def State.busy (s : State) : Bool := s.status.getLsbD 0
/-- STATUS.DONE (R25, bit 1). -/
def State.done (s : State) : Bool := s.status.getLsbD 1
/-- STATUS.ERR (R25, bit 2). -/
def State.err (s : State) : Bool := s.status.getLsbD 2
/-- STATUS.OVR (R25, bit 3). -/
def State.ovr (s : State) : Bool := s.status.getLsbD 3
/-- STATUS.ESTABLISHED (R25, bit 4). -/
def State.established (s : State) : Bool := s.status.getLsbD 4
/-- STATUS.MATCH (R25, bit 5). -/
def State.matched (s : State) : Bool := s.status.getLsbD 5
/-- STATUS.DEFKEY (R25, bit 6). -/
def State.defkey (s : State) : Bool := s.status.getLsbD 6

/-- CTRL.USE_CRC (R24, bit 0). -/
def State.useCrc (s : State) : Bool := s.ctrl.getLsbD 0
/-- CTRL.ROLE (R24, bit 1): true for the responder. -/
def State.responder (s : State) : Bool := s.ctrl.getLsbD 1
/-- CTRL.IRQ_EN (R24, bit 2). -/
def State.irqEn (s : State) : Bool := s.ctrl.getLsbD 2

/-- R285: the level of the IRQ output, IRQ = STATUS.DONE AND CTRL.IRQ_EN (log 11). -/
def State.irq (s : State) : Bool := s.done && s.irqEn

/-- One bit of STATUS written. -/
def State.setStatusBit (s : State) (n : Nat) (v : Bool) : State := { s with status := setBit s.status n v }

/-- STATUS.BUSY <- v. -/
def State.setBusy (s : State) (v : Bool) : State := s.setStatusBit 0 v
/-- STATUS.DONE <- v. -/
def State.setDone (s : State) (v : Bool) : State := s.setStatusBit 1 v
/-- STATUS.ERR <- v. -/
def State.setErr (s : State) (v : Bool) : State := s.setStatusBit 2 v
/-- STATUS.OVR <- v. -/
def State.setOvr (s : State) (v : Bool) : State := s.setStatusBit 3 v
/-- STATUS.ESTABLISHED <- v. -/
def State.setEstablished (s : State) (v : Bool) : State := s.setStatusBit 4 v
/-- STATUS.MATCH <- v. -/
def State.setMatched (s : State) (v : Bool) : State := s.setStatusBit 5 v
/-- STATUS.DEFKEY <- v. -/
def State.setDefkey (s : State) (v : Bool) : State := s.setStatusBit 6 v

/-- R25: a host write of `v` to STATUS clears DONE, ERR and OVR where `v` holds 1 in bits 1, 2 and 3; its other bits are
ignored. -/
def clearStatus (status v : Byte) : Byte := status &&& ~~~(v &&& 0x0E)

/-- The bits of CTRL that exist (R24: bits 7:3 are RAZ/WI). -/
def ctrlMask : Byte := 0x07

/-- The bits of SEQ that exist (R28: bits 7:2 are RAZ/WI). -/
def seqMask : Byte := 0x03

/-- The bits of STATUS that exist (R25: bit 7 is RAZ/WI). -/
def statusMask : Byte := 0x7F

/-- 30_encoding.md R97: the value of an error code. -/
def ErrCode.toByte : ErrCode → Byte
  | .illegal => 0x01
  | .range => 0x02
  | .notest => 0x03
  | .notaligned => 0x04
  | .nopadmark => 0x05
  | .badscs => 0x06
  | .toolong => 0x07
  | .badsom => 0x08
  | .length => 0x09
  | .checksum => 0x0A
  | .cryptmismatch => 0x0B
  | .macmismatch => 0x0C

end Sys2Proof.Machine
end

