-- ==== Sys2Proof/Machine/Ops.lean ====
section
/-! DEFINITION. The operations every instruction is built from: reading and writing the buffers (10_state.md R51, R52),
ending an instruction as a success or as an error (40_control.md R111; 60_exceptions.md R282), and issuing one (R110). -/

namespace Sys2Proof.Machine

/-! ### The buffers -/

/-- What has been written at an offset since power-on, if anything has. -/
def Memory.get? : Memory → Nat → Option Byte
  | [], _ => none
  | (k, v) :: rest, a => if a < k then none else if a = k then some v else Memory.get? rest a

/-- A byte stored, the list kept in rising order. -/
def Memory.set : Memory → Nat → Byte → Memory
  | [], a, b => [(a, b)]
  | (k, v) :: rest, a, b =>
    if a < k then (a, b) :: (k, v) :: rest
    else if a = k then (a, b) :: rest
    else (k, v) :: Memory.set rest a b

/-- What an offset that nothing has written reads as: `BUF_INIT` (70_reset_and_hazards.md R311; log 4). -/
def Memory.unwritten (life a : Nat) : Byte := Config.bufInit life a

/-- The byte at an offset. -/
def Memory.read (m : Memory) (life a : Nat) : Byte := (m.get? a).getD (Memory.unwritten life a)

/-- `n` bytes from an offset up. -/
def Memory.readBytes (m : Memory) (life a : Nat) : Nat → Bytes
  | 0 => []
  | n + 1 => m.read life a :: Memory.readBytes m life (a + 1) n

/-- A byte string stored from an offset up. -/
def Memory.writeBytes (m : Memory) (a : Nat) : Bytes → Memory
  | [] => m
  | b :: bs => Memory.writeBytes (m.set a b) (a + 1) bs

/-- The offsets rise strictly, from `lo` up, and lie below the window's end. -/
def Memory.wfFrom (lo : Nat) : Memory → Bool
  | [] => true
  | (k, _) :: rest => lo ≤ k && k < Config.windowSize && Memory.wfFrom (k + 1) rest

/-- The canonical form: strictly rising offsets, all of them in the two buffers (20_memory.md R60). -/
def Memory.wf (m : Memory) : Bool := Memory.wfFrom Config.dbufBase m

/-- The byte of the buffers at a window offset. -/
def State.byte (s : State) (a : Nat) : Byte := s.mem.read s.life a

/-- `DBUF[i]`. -/
def State.dbufByte (s : State) (i : Nat) : Byte := s.byte (Config.dbufBase + i)

/-- `FBUF[i]`. -/
def State.fbufByte (s : State) (i : Nat) : Byte := s.byte (Config.fbufBase + i)

/-- `DBUF[i..i+n)`. -/
def State.dbuf (s : State) (i n : Nat) : Bytes := s.mem.readBytes s.life (Config.dbufBase + i) n

/-- `FBUF[i..i+n)`. -/
def State.fbuf (s : State) (i n : Nat) : Bytes := s.mem.readBytes s.life (Config.fbufBase + i) n

/-- `DBUF[i..i+len(d)) <- d`. -/
def State.writeDbuf (s : State) (i : Nat) (d : Bytes) : State :=
  { s with mem := s.mem.writeBytes (Config.dbufBase + i) d }

/-- `FBUF[i..i+len(d)) <- d`. -/
def State.writeFbuf (s : State) (i : Nat) (d : Bytes) : State :=
  { s with mem := s.mem.writeBytes (Config.fbufBase + i) d }

/-! ### Ending an instruction -/

/-- R111: completion with result code `code`: ERRCODE <- code, ERR <- 1 if the code is nonzero (it is sticky), BUSY <- 0,
DONE <- 1. -/
def State.complete (s : State) (code : Byte) : State :=
  { ((s.setErr (s.err || code != 0)).setBusy false).setDone true with errcode := code }

/-- 00_scope.md R12 `finish`: the instruction ends as a success, with ERRCODE 0x00. -/
def finish (s : State) : Host.Outcome State Fault Refusal := .next (s.complete 0x00)

/-- R12, R282 `raise Error(code)`: the instruction ends as a failure. This is all that "taking" an error is (R284): no state
is saved, no mode changes and control goes nowhere. -/
def raiseError (e : ErrCode) (s : State) : Host.Outcome State Fault Refusal := .next (s.complete e.toByte)

/-- R282 for a MATCH writer (VCRC16, VCKSUM8, VCCRYPT, VSCRYPT, PARSE): the error also writes MATCH <- 0. -/
def raiseMatchError (e : ErrCode) (s : State) : Host.Outcome State Fault Refusal := raiseError e (s.setMatched false)

/-- R282, R284: the "return" from an error is the host's acknowledgement, a 1 written to STATUS.ERR (R25). There is no return
instruction. -/
def State.acknowledge (s : State) (v : Byte) : State := { s with status := clearStatus s.status v }

/-- 30_encoding.md R85: an undefined opcode completes with ILLEGAL and changes nothing else. -/
def completeIllegal (s : State) : Host.Outcome State Fault Refusal := raiseError .illegal s

/-! ### Issuing an instruction -/

/-- R110: an accepted write of `v` to OPC: OPC <- v, BUSY <- 1, DONE <- 0. The instruction will stay BUSY for one cycle more
than the next entry of `latencies` says (log 2). -/
def State.issue (s : State) (v : Byte) : State :=
  { (s.setBusy true).setDone false with opc := v, wait := s.latencies.headD 0, latencies := s.latencies.tail }

end Sys2Proof.Machine
end

