-- ==== Sys2Proof/Machine/Operands.lean ====
section
/-! DEFINITION. The operands of the instructions (30_encoding.md R82): the FBUF span of OPOFF and OPLEN, the DBUF data of
DLEN, the key that K selects, and the registers that the direction R selects. -/

namespace Sys2Proof.Machine

/-- 10_state.md R37: the span OPOFF, OPLEN passes the end of FBUF. The sum does not wrap around. -/
def State.spanOutOfRange (s : State) : Bool := s.opoff.toNat + s.oplen.toNat > Config.fbufSize

/-- `FBUF[OPOFF..OPOFF+OPLEN)` (R36, R37). -/
def State.span (s : State) : Bytes := s.fbuf s.opoff.toNat s.oplen.toNat

/-- R34: DLEN passes the end of DBUF. -/
def State.dataOutOfRange (s : State) : Bool := s.dlen.toNat > Config.dbufSize

/-- `DBUF[0..DLEN)` (R34). -/
def State.data (s : State) : Bytes := s.dbuf 0 s.dlen.toNat

/-- R82, 43_aes.md R161 KEYSEL: the key register that the K field selects. -/
def State.keySel (s : State) (k : BitVec 2) : Block :=
  match k.toNat with
  | 0 => s.key
  | 1 => s.sEnc
  | 2 => s.sMac1
  | _ => s.sMac2

/-- R82, 45_mac_cbc.md R211: the chaining value a MAC reads: RMAC for a command, CMAC for a reply. -/
def State.chainIv (s : State) : Dir → Block
  | .command => s.rmac
  | .reply => s.cmac

/-- R211: the direction's own accumulator overwritten: CMAC for a command, RMAC for a reply. -/
def State.setAccumulator (s : State) (d : Dir) (t : Block) : State :=
  match d with
  | .command => { s with cmac := t }
  | .reply => { s with rmac := t }

/-- R214: the data cipher's IV: ~CMAC for a command, ~RMAC for a reply. -/
def State.cipherIv (s : State) : Dir → Block
  | .command => s.cmac.compl
  | .reply => s.rmac.compl

end Sys2Proof.Machine
end

