-- ==== Sys2Proof/Machine/Aes.lean ====
section
/-! DEFINITION. AESE.* and AESD.*: AES-128 of BLK in place under the key that K selects (43_aes.md R161, R162). -/

namespace Sys2Proof.Machine

/-- R161: BLK <- E(KEYSEL(k), BLK). -/
def aesEncryptBlk (k : BitVec 2) (s : State) : Host.Outcome State Fault Refusal :=
  finish { s with blk := aesEnc (s.keySel k) s.blk }

/-- R162: BLK <- D(KEYSEL(k), BLK). -/
def aesDecryptBlk (k : BitVec 2) (s : State) : Host.Outcome State Fault Refusal :=
  finish { s with blk := aesDec (s.keySel k) s.blk }

/-- R161 AESE.KEY. -/
def execAeseKey (s : State) : Host.Outcome State Fault Refusal := aesEncryptBlk 0 s
/-- R161 AESE.ENC. -/
def execAeseEnc (s : State) : Host.Outcome State Fault Refusal := aesEncryptBlk 1 s
/-- R161 AESE.MAC1. -/
def execAeseMac1 (s : State) : Host.Outcome State Fault Refusal := aesEncryptBlk 2 s
/-- R161 AESE.MAC2. -/
def execAeseMac2 (s : State) : Host.Outcome State Fault Refusal := aesEncryptBlk 3 s
/-- R162 AESD.KEY. -/
def execAesdKey (s : State) : Host.Outcome State Fault Refusal := aesDecryptBlk 0 s
/-- R162 AESD.ENC. -/
def execAesdEnc (s : State) : Host.Outcome State Fault Refusal := aesDecryptBlk 1 s
/-- R162 AESD.MAC1. -/
def execAesdMac1 (s : State) : Host.Outcome State Fault Refusal := aesDecryptBlk 2 s
/-- R162 AESD.MAC2. -/
def execAesdMac2 (s : State) : Host.Outcome State Fault Refusal := aesDecryptBlk 3 s

end Sys2Proof.Machine
end

