-- ==== Sys2Proof/Machine/Checksum.lean ====
section
/-! DEFINITION. The CRC-16 and checksum unit: the functions `crc16` and `cks8` (41_crc.md R120, R121) and CRC16, CKSUM8,
VCRC16, VCKSUM8 (R122 to R125). -/

namespace Sys2Proof.Machine

/-- R120: one bit's step of the CRC register. -/
def crcShift (c : Half) : Half := if c.getLsbD 15 then (c <<< 1) ^^^ 0x1021 else c <<< 1

/-- `n` bit steps. -/
def crcShifts (c : Half) : Nat → Half
  | 0 => c
  | n + 1 => crcShift (crcShifts c n)

/-- R120: one byte's step: `c ^ (b << 8)`, then eight bit steps. -/
def crcByte (c : Half) (b : Byte) : Half := crcShifts (c ^^^ (b.setWidth 16 <<< 8)) 8

/-- The CRC register after a byte string, from a given value. -/
def crcFrom (c : Half) : Bytes → Half
  | [] => c
  | b :: bs => crcFrom (crcByte c b) bs

/-- R120: `crc16(b)`. -/
def crc16 (bs : Bytes) : Half := crcFrom 0x1D0F bs

/-- The sum of a byte string's bytes, exact. -/
def byteSum : Bytes → Nat
  | [] => 0
  | b :: bs => b.toNat + byteSum bs

/-- R121: `cks8(b) = (256 - (sum mod 256)) mod 256`. -/
def cks8 (bs : Bytes) : Byte := BitVec.ofNat 8 ((256 - byteSum bs % 256) % 256)

/-- R122 CRC16. -/
def execCrc16 (s : State) : Host.Outcome State Fault Refusal :=
  if s.spanOutOfRange then raiseError .range s
  else finish { s with fcs := crc16 s.span }

/-- R123 CKSUM8. -/
def execCksum8 (s : State) : Host.Outcome State Fault Refusal :=
  if s.spanOutOfRange then raiseError .range s
  else finish { s with fcs := (cks8 s.span).setWidth 16 }

/-- R124 VCRC16: the last two bytes of the span are the CRC of the others, low byte first. -/
def execVcrc16 (s : State) : Host.Outcome State Fault Refusal :=
  let o := s.opoff.toNat
  let n := s.oplen.toNat
  if s.spanOutOfRange then raiseMatchError .range s
  else if n < 2 then raiseMatchError .length s
  else
    let c := crc16 (s.fbuf o (n - 2))
    if s.fbufByte (o + n - 2) ≠ loByte c ∨ s.fbufByte (o + n - 1) ≠ hiByte c then raiseMatchError .checksum s
    else finish ({ s with fcs := c }.setMatched true)

/-- R125 VCKSUM8: the last byte of the span is the checksum of the others. -/
def execVcksum8 (s : State) : Host.Outcome State Fault Refusal :=
  let o := s.opoff.toNat
  let n := s.oplen.toNat
  if s.spanOutOfRange then raiseMatchError .range s
  else if n < 1 then raiseMatchError .length s
  else
    let c := cks8 (s.fbuf o (n - 1))
    if s.fbufByte (o + n - 1) ≠ c then raiseMatchError .checksum s
    else finish ({ s with fcs := c.setWidth 16 }.setMatched true)

end Sys2Proof.Machine
end

