-- ==== Sys2Proof/Machine/Context.lean ====
section
/-! DEFINITION. The Security Context and the handshake's cryptography: SCRESET, DERIVE, CRYPT, VCCRYPT, VSCRYPT, ADOPTRMAC
(44_security_context.md R180 to R186). -/

namespace Sys2Proof.Machine

/-- 00_scope.md R11 `draw_bytes(8)`: what the random source gives next, a free value (logs 5, 22). -/
def State.draw (s : State) : Rnd := Config.rngDraw s.life s.rng

/-- R180 SCRESET. -/
def execScreset (s : State) : Host.Outcome State Fault Refusal :=
  let r := s.draw
  let t := { s with
    sEnc := .zero, sMac1 := .zero, sMac2 := .zero, cmac := .zero, rmac := .zero, ccrypt := .zero, scrypt := .zero,
    rndA := if s.responder then s.rndA else r,
    rndB := if s.responder then r else s.rndB,
    rng := s.rng + 1 }
  finish ((t.setEstablished false).setDefkey (s.key == Config.defaultKey))

/-- R182: the block `p0 p1 ‖ RND_A[0..6) ‖ 0x00^8` a session key is the encryption of. -/
def derivationBlock (p0 p1 : Byte) (r : Rnd) : Block :=
  ⟨⟨p0, p1, r.q0.b0, r.q0.b1⟩, ⟨r.q0.b2, r.q0.b3, r.q1.b0, r.q1.b1⟩, .zero, .zero⟩

/-- R182 DERIVE. -/
def execDerive (s : State) : Host.Outcome State Fault Refusal :=
  finish { s with
    sEnc := aesEnc s.key (derivationBlock 0x01 0x82 s.rndA)
    sMac1 := aesEnc s.key (derivationBlock 0x01 0x01 s.rndA)
    sMac2 := aesEnc s.key (derivationBlock 0x01 0x02 s.rndA) }

/-- R183 CRYPT. -/
def execCrypt (s : State) : Host.Outcome State Fault Refusal :=
  finish { s with
    ccrypt := aesEnc s.sEnc (.ofRnds s.rndA s.rndB)
    scrypt := aesEnc s.sEnc (.ofRnds s.rndB s.rndA) }

/-- R184 VCCRYPT. -/
def execVccrypt (s : State) : Host.Outcome State Fault Refusal :=
  if s.blk ≠ s.ccrypt then raiseMatchError .cryptmismatch s
  else finish (s.setMatched true)

/-- R185: the initial R-MAC, `E(S_MAC2, E(S_MAC1, SCRYPT))`. -/
def State.initialRmac (s : State) : Block := aesEnc s.sMac2 (aesEnc s.sMac1 s.scrypt)

/-- R185 VSCRYPT. -/
def execVscrypt (s : State) : Host.Outcome State Fault Refusal :=
  if s.blk ≠ s.scrypt then raiseMatchError .cryptmismatch s
  else finish (({ s with rmac := s.initialRmac }.setEstablished true).setMatched true)

/-- R186 ADOPTRMAC. -/
def execAdoptrmac (s : State) : Host.Outcome State Fault Refusal :=
  finish ({ s with rmac := s.blk }.setEstablished true)

end Sys2Proof.Machine
end

