-- ==== Sys2Proof/Machine/Control.lean ====
section
/-! DEFINITION. NOP and SRESET (40_control.md R112, R113). -/

namespace Sys2Proof.Machine

/-- R112 NOP: nothing but the completion. -/
def execNop (s : State) : Host.Outcome State Fault Refusal := finish s

/-- R113: every register of 10_state.md R22 but OPC takes its reset value. The buffers, the random source and the host side
are as before. -/
def State.softReset (s : State) : State :=
  { State.reset with
    opc := s.opc, mem := s.mem, wait := s.wait, rng := s.rng, life := s.life, busyReads := s.busyReads, latencies := s.latencies,
    host := s.host, answers := s.answers }

/-- R113 SRESET. -/
def execSreset (s : State) : Host.Outcome State Fault Refusal := finish s.softReset

end Sys2Proof.Machine
end

