-- ==== Sys2Proof/Machine/Padding.lean ====
section
/-! DEFINITION. The padding unit: the function `pad` (42_padding.md R140) and PAD, UNPAD (R141, R142). -/

namespace Sys2Proof.Machine

/-- R140: what `pad` appends to a string of `n` bytes: 0x80, then `15 - (n mod 16)` bytes 0x00. -/
def padTail (n : Nat) : Bytes := 0x80 :: List.replicate (15 - n % 16) 0x00

/-- R140: `pad(d)`. -/
def pad (d : Bytes) : Bytes := d ++ padTail d.length

/-- R140: the length of `pad(d)` for a string of `n` bytes. -/
def paddedLen (n : Nat) : Nat := 16 * (n / 16 + 1)

/-- R142: the scan from the end. The index, below `i`, of the 0x80 that only 0x00 bytes follow. -/
def scanMark (d : Bytes) : Nat → Option Nat
  | 0 => none
  | i + 1 =>
    if d.getD i 0x00 = 0x00 then scanMark d i
    else if d.getD i 0x00 = 0x80 then some i
    else none

/-- R141 PAD. DBUF[0..n) keeps its bytes, so only the tail of `pad` is stored. -/
def execPad (s : State) : Host.Outcome State Fault Refusal :=
  let n := s.dlen.toNat
  if s.dataOutOfRange then raiseError .range s
  else if paddedLen n > Config.dbufSize then raiseError .range s
  else finish { s.writeDbuf n (padTail n) with dlen := BitVec.ofNat 16 (paddedLen n) }

/-- R142 UNPAD. -/
def execUnpad (s : State) : Host.Outcome State Fault Refusal :=
  if s.dataOutOfRange then raiseError .range s
  else
    match scanMark s.data s.dlen.toNat with
    | none => raiseError .nopadmark s
    | some i => finish { s with dlen := BitVec.ofNat 16 i }

end Sys2Proof.Machine
end

