-- ==== Sys2Proof/Machine/MacCbc.lean ====
section
/-! DEFINITION. The session MAC and the CBC data cipher: `mac`, `cbc_enc`, `cbc_dec` (45_mac_cbc.md R210 to R214) and MACC,
MACR, ENCC, ENCR, DECC, DECR (R216 to R218). -/

namespace Sys2Proof.Machine

/-- The first `k` sixteen-byte blocks of a byte string. -/
def blocksOf : Nat → Bytes → List Block
  | 0, _ => []
  | k + 1, d => Block.ofBytes d :: blocksOf k (d.drop 16)

/-- The byte string of a list of blocks. -/
def bytesOf : List Block → Bytes
  | [] => []
  | b :: bs => b.toBytes ++ bytesOf bs

/-- R210: the MAC's input with its padding: an aligned non-empty message has none unless `MAC_PAD_ALIGNED`. -/
def macInput (padAligned : Bool) (m : Bytes) : Bytes :=
  if m.length > 0 ∧ m.length % 16 = 0 ∧ padAligned = false then m else pad m

/-- R210: the chain: S_MAC1 for every block but the last, S_MAC2 for the last. -/
def macChain (k1 k2 : Block) : Block → List Block → Block
  | c, [] => c
  | c, [p] => aesEnc k2 (p.xor c)
  | c, p :: q :: rest => macChain k1 k2 (aesEnc k1 (p.xor c)) (q :: rest)

/-- R210: `mac(m, iv)` under given keys, with `MAC_PAD_ALIGNED` as given. -/
def macWith (padAligned : Bool) (k1 k2 : Block) (m : Bytes) (iv : Block) : Block :=
  let p := macInput padAligned m
  macChain k1 k2 iv (blocksOf (p.length / 16) p)

/-- R210: `mac(m, iv)` under S_MAC1 and S_MAC2. -/
def State.mac (s : State) (m : Bytes) (iv : Block) : Block := macWith Config.macPadAligned s.sMac1 s.sMac2 m iv

/-- R211: the MAC of a message in a direction, chained from the other direction's accumulator. -/
def State.dirMac (s : State) (d : Dir) (m : Bytes) : Block := s.mac m (s.chainIv d)

/-- R212 on blocks. -/
def cbcEncBlocks (k : Block) : Block → List Block → List Block
  | _, [] => []
  | c, p :: ps =>
    let e := aesEnc k (p.xor c)
    e :: cbcEncBlocks k e ps

/-- R213 on blocks. -/
def cbcDecBlocks (k : Block) : Block → List Block → List Block
  | _, [] => []
  | c, b :: bs => (aesDec k b).xor c :: cbcDecBlocks k b bs

/-- R212: `cbc_enc(k, iv, d)`. -/
def cbcEnc (k iv : Block) (d : Bytes) : Bytes := bytesOf (cbcEncBlocks k iv (blocksOf (d.length / 16) d))

/-- R213: `cbc_dec(k, iv, d)`. -/
def cbcDec (k iv : Block) (d : Bytes) : Bytes := bytesOf (cbcDecBlocks k iv (blocksOf (d.length / 16) d))

/-- R216: MACC and MACR. -/
def macSpan (d : Dir) (s : State) : Host.Outcome State Fault Refusal :=
  if s.spanOutOfRange then raiseError .range s
  else if s.established = false then raiseError .notest s
  else finish (s.setAccumulator d (s.dirMac d s.span))

/-- R217, R218: the checks ENCC, ENCR, DECC and DECR share, and the transformation of DBUF[0..DLEN) by `f`. -/
def cipherData (f : Bytes → Bytes) (s : State) : Host.Outcome State Fault Refusal :=
  if s.dataOutOfRange then raiseError .range s
  else if s.established = false then raiseError .notest s
  else if s.dlen.toNat = 0 then finish s
  else if s.dlen.toNat % 16 ≠ 0 then raiseError .notaligned s
  else finish (s.writeDbuf 0 (f s.data))

/-- R216 MACC. -/
def execMacc (s : State) : Host.Outcome State Fault Refusal := macSpan .command s
/-- R216 MACR. -/
def execMacr (s : State) : Host.Outcome State Fault Refusal := macSpan .reply s
/-- R217 ENCC. -/
def execEncc (s : State) : Host.Outcome State Fault Refusal := cipherData (cbcEnc s.sEnc (s.cipherIv .command)) s
/-- R217 ENCR. -/
def execEncr (s : State) : Host.Outcome State Fault Refusal := cipherData (cbcEnc s.sEnc (s.cipherIv .reply)) s
/-- R218 DECC. -/
def execDecc (s : State) : Host.Outcome State Fault Refusal := cipherData (cbcDec s.sEnc (s.cipherIv .command)) s
/-- R218 DECR. -/
def execDecr (s : State) : Host.Outcome State Fault Refusal := cipherData (cbcDec s.sEnc (s.cipherIv .reply)) s

end Sys2Proof.Machine
end

