-- ==== Sys2Proof/Machine/Framer.lean ====
section
/-! DEFINITION. The message framer: the wire frame (30_encoding.md R88 to R96) and BUILD, BUILDA, PARSE (46_framer.md R240 to
R250). -/

namespace Sys2Proof.Machine

/-! ### What an SCS type means (30_encoding.md R94) -/

/-- R94: the eight types 0x11-0x18. -/
def scsValid (scs : Byte) : Bool := 0x11 ≤ scs.toNat && scs.toNat ≤ 0x18

/-- R94: the types that carry a MAC, 0x15-0x18. -/
def scsHasMac (scs : Byte) : Bool := 0x15 ≤ scs.toNat && scs.toNat ≤ 0x18

/-- R94: the types whose data is encrypted, when there is any. -/
def scsEncrypts (scs : Byte) : Bool := scs = 0x17 || scs = 0x18

/-- R240, R250: the direction of a MAC type: 0x16 and 0x18 are replies. -/
def scsDir (scs : Byte) : Dir := if scs = 0x16 ∨ scs = 0x18 then .reply else .command

/-- R93: the security block lengths the block supports. -/
def scbLenValid (l : Byte) : Bool := l = 2 || l = 3

/-- R96: how many bytes the FCS has. -/
def fcsLen (crc : Bool) : Nat := if crc then 2 else 1

/-- R94: how many bytes of MAC a frame of this type carries. -/
def macLen (scs : Byte) : Nat := if scsHasMac scs then 4 else 0

/-- R96: a frame body with its FCS appended. -/
def appendFcs (crc : Bool) (f : Bytes) : Bytes :=
  if crc then f ++ [loByte (crc16 f), hiByte (crc16 f)] else f ++ [cks8 f]

/-! ### Build -/

/-- R240: the data as sent: padded and encrypted for an encrypting type with data, else as it is. The IV is the complement of the
direction's accumulator, which the build then overwrites, so a rebuilt encrypted frame with data differs from the first; R240 is
followed here against R318's sentence that a rebuilt command is the same frame (log 21). -/
def State.wireData (s : State) (scs : Byte) : Bytes :=
  if scsEncrypts scs ∧ s.dlen.toNat > 0 then cbcEnc s.sEnc (s.cipherIv (scsDir scs)) (pad s.data) else s.data

/-- R240: the number of data bytes as sent. -/
def State.wireLen (s : State) (scs : Byte) : Nat :=
  if scsEncrypts scs ∧ s.dlen.toNat > 0 then paddedLen s.dlen.toNat else s.dlen.toNat

/-- R240, R95: the frame's length L. -/
def State.frameLen (s : State) (scs scblen : Byte) : Nat :=
  6 + (if scs ≠ 0x00 then scblen.toNat else 0) + s.wireLen scs + macLen scs + fcsLen s.useCrc

/-- R240, R91: the control byte: SEQ in bits 1:0, USE_CRC in bit 2, the security block's presence in bit 3. -/
def State.controlByte (s : State) (scs : Byte) : Byte :=
  (s.seq &&& seqMask) ||| (if s.useCrc then 0x04 else 0x00) ||| (if scs ≠ 0x00 then 0x08 else 0x00)

/-- R240, R93: the security block. -/
def State.securityBlock (s : State) (scs scblen : Byte) : Bytes :=
  if scs = 0x00 then [] else if scblen = 3 then [scblen, scs, s.scbdata] else [scblen, scs]

/-- R240, R88: the frame from SOM to the end of the data as sent. -/
def State.frameBody (s : State) (scs scblen : Byte) : Bytes :=
  let l := BitVec.ofNat 16 (s.frameLen scs scblen)
  [Config.som, s.addr, loByte l, hiByte l, s.controlByte scs] ++ s.securityBlock scs scblen ++ [s.code] ++ s.wireData scs

/-- R240: the MAC of the frame, over everything before it. -/
def State.frameMac (s : State) (scs scblen : Byte) : Block := s.dirMac (scsDir scs) (s.frameBody scs scblen)

/-- R240, R88: the whole frame. -/
def State.frame (s : State) (scs scblen : Byte) : Bytes :=
  appendFcs s.useCrc (s.frameBody scs scblen ++ if scsHasMac scs then (s.frameMac scs scblen).toBytes.take 4 else [])

/-- R240: the checks of `build_frame`, in order. -/
def State.buildError (s : State) (scs scblen : Byte) : Option ErrCode :=
  if s.dataOutOfRange then some .range
  else if scs ≠ 0x00 ∧ (scsValid scs = false ∨ scbLenValid scblen = false) then some .badscs
  else if scsHasMac scs ∧ s.established = false then some .notest
  else if s.frameLen scs scblen > Config.fbufSize then some .toolong
  else none

/-- R240: what `build_frame` writes: the frame, FLEN, and the direction's accumulator when the frame has a MAC. -/
def State.withFrame (s : State) (scs scblen : Byte) : State :=
  let t := if scsHasMac scs then s.setAccumulator (scsDir scs) (s.frameMac scs scblen) else s
  { t.writeFbuf 0 (s.frame scs scblen) with flen := BitVec.ofNat 16 (s.frameLen scs scblen) }

/-- R242 BUILD. -/
def execBuild (s : State) : Host.Outcome State Fault Refusal :=
  match s.buildError s.scs s.scblen with
  | some e => raiseError e s
  | none => finish (s.withFrame s.scs s.scblen)

/-- R241: the type BUILDA chooses. -/
def State.autoScs (s : State) : Byte :=
  if s.established = false then 0x00
  else if s.responder then (if s.dlen = 0 then 0x16 else 0x18)
  else (if s.dlen = 0 then 0x15 else 0x17)

/-- R243: the security block length BUILDA uses. -/
def State.autoScblen (s : State) : Byte := if s.autoScs ≠ 0x00 then 2 else s.scblen

/-- R243 BUILDA. SCS takes the chosen type also when that is 0x00 (log 8). -/
def execBuilda (s : State) : Host.Outcome State Fault Refusal :=
  match s.buildError s.autoScs s.autoScblen with
  | some e => raiseError e s
  | none => finish { s.withFrame s.autoScs s.autoScblen with scs := s.autoScs, scblen := s.autoScblen }

/-! ### Parse -/

/-- Where the fields of a received frame lie, and what its header says (R250's local names). -/
structure Layout where
  /-- `ctrl`: the control byte. -/
  ctrl : Byte
  /-- `S`: the security block's length, 0x00 without one. -/
  scblen : Byte
  /-- `scs`: the security block's type, 0x00 without one. -/
  scs : Byte
  /-- `sd`: the security block's data byte, 0x00 without one. -/
  scbdata : Byte
  /-- `ds`: where the data begins. -/
  ds : Nat
  /-- `de`: where the data ends. -/
  de : Nat
deriving DecidableEq, Repr

/-- R250, 30_encoding.md R91: the control byte's CRC flag. -/
def ctrlCrc (ctrl : Byte) : Bool := ctrl.getLsbD 2

/-- R250, R91: the control byte's security block flag. -/
def ctrlScb (ctrl : Byte) : Bool := ctrl.getLsbD 3

/-- R250: the declared length, frame bytes 2 and 3. -/
def State.declaredLen (s : State) : Nat := (mkHalf (s.fbufByte 2) (s.fbufByte 3)).toNat

/-- R250, R96: the FCS of the frame of length `l` in FBUF is right. -/
def State.fcsOk (s : State) (crc : Bool) (l : Nat) : Bool :=
  if crc then mkHalf (s.fbufByte (l - 2)) (s.fbufByte (l - 1)) = crc16 (s.fbuf 0 (l - 2))
  else s.fbufByte (l - 1) = cks8 (s.fbuf 0 (l - 1))

/-- R250: the checks up to CHECKSUM, in order; the declared length L if all pass. -/
def State.parseHeader (s : State) : Except ErrCode Nat :=
  let n := s.flen.toNat
  if n > Config.fbufSize then .error .range
  else if n < 1 then .error .length
  else if s.fbufByte 0 ≠ Config.som then .error .badsom
  else if n < 5 then .error .length
  else
    let l := s.declaredLen
    let ctrl := s.fbufByte 4
    if n < l then .error .length
    else if l < 6 + fcsLen (ctrlCrc ctrl) + (if ctrlScb ctrl then 2 else 0) then .error .length
    else if s.fcsOk (ctrlCrc ctrl) l = false then .error .checksum
    else .ok l

/-- R250: the security block of a frame of length `l` with control byte `ctrl` and its checks, in order: its length, type and
data byte. -/
def State.parseScb (s : State) (ctrl : Byte) (l : Nat) : Except ErrCode (Byte × Byte × Byte) :=
  if ctrlScb ctrl then
    let scblen := s.fbufByte 5
    let scs := s.fbufByte 6
    if scbLenValid scblen = false ∨ scsValid scs = false then .error .badscs
    else if 6 + scblen.toNat + fcsLen (ctrlCrc ctrl) > l then .error .length
    else .ok (scblen, scs, if scblen = 3 then s.fbufByte 7 else 0x00)
  else .ok (0x00, 0x00, 0x00)

/-- R250: the checks after the security block's, in order. -/
def State.parseBody (s : State) (ctrl : Byte) (l : Nat) (scb : Byte × Byte × Byte) : Except ErrCode Layout :=
  let (scblen, scs, scbdata) := scb
  let c := fcsLen (ctrlCrc ctrl)
  let m := macLen scs
  if 6 + scblen.toNat + m + c > l then .error .length
  else if scsHasMac scs ∧ s.established = false then .error .notest
  else
    let ds := 6 + scblen.toNat
    let de := l - c - m
    if de - ds > Config.dbufSize then .error .range
    else if scsEncrypts scs ∧ (de - ds) % 16 ≠ 0 then .error .notaligned
    else .ok ⟨ctrl, scblen, scs, scbdata, ds, de⟩

/-- R250: every check but the MAC's. -/
def State.parseLayout (s : State) : Except ErrCode Layout :=
  match s.parseHeader with
  | .error e => .error e
  | .ok l =>
    match s.parseScb (s.fbufByte 4) l with
    | .error e => .error e
    | .ok scb => s.parseBody (s.fbufByte 4) l scb

/-- R250: the MAC regenerated over FBUF[0..de), chained from the accumulators as they were. -/
def State.rxMac (s : State) (y : Layout) : Block := s.dirMac (scsDir y.scs) (s.fbuf 0 y.de)

/-- R250 `good`: the frame has no MAC, or its four MAC bytes are the first four of the regenerated MAC. -/
def State.macGood (s : State) (y : Layout) : Bool :=
  !scsHasMac y.scs || s.fbuf y.de 4 == (s.rxMac y).toBytes.take 4

/-- R250: the data PARSE writes: decrypted when the type encrypts, there is data and the MAC is good; else as received. -/
def State.rxData (s : State) (y : Layout) : Bytes :=
  let raw := s.fbuf y.ds (y.de - y.ds)
  if scsEncrypts y.scs ∧ y.de - y.ds > 0 ∧ s.macGood y then cbcDec s.sEnc (s.cipherIv (scsDir y.scs)) raw else raw

/-- R250: what PARSE writes before it reports: the accumulator, the header fields, the data and DLEN. -/
def State.withParsed (s : State) (y : Layout) : State :=
  let t := if scsHasMac y.scs then s.setAccumulator (scsDir y.scs) (s.rxMac y) else s
  { t.writeDbuf 0 (s.rxData y) with
    addr := s.fbufByte 1, seq := y.ctrl &&& seqMask, rxctrl := y.ctrl, scblen := y.scblen, scs := y.scs,
    scbdata := y.scbdata, code := s.fbufByte (5 + y.scblen.toNat), dlen := BitVec.ofNat 16 (y.de - y.ds) }

/-- R250 PARSE. -/
def execParse (s : State) : Host.Outcome State Fault Refusal :=
  match s.parseLayout with
  | .error e => raiseMatchError e s
  | .ok y =>
    if s.macGood y then finish ((s.withParsed y).setMatched true)
    else raiseMatchError .macmismatch (s.withParsed y)

end Sys2Proof.Machine
end

