-- ==== Sys2Proof/Machine/Dispatch.lean ====
section
/-! DEFINITION. exec: one arm for each instruction, one direct call of its meaning. The meaning is the instruction's completion
(40_control.md R111), in one atomic step (20_memory.md R70). -/

namespace Sys2Proof.Machine

def exec (i : Instr) (s : State) : Host.Outcome State Fault Refusal :=
  match i with
  | .nop => Sys2Proof.Machine.execNop s
  | .sreset => Sys2Proof.Machine.execSreset s
  | .crc16 => Sys2Proof.Machine.execCrc16 s
  | .cksum8 => Sys2Proof.Machine.execCksum8 s
  | .vcrc16 => Sys2Proof.Machine.execVcrc16 s
  | .vcksum8 => Sys2Proof.Machine.execVcksum8 s
  | .aeseKey => Sys2Proof.Machine.execAeseKey s
  | .aeseEnc => Sys2Proof.Machine.execAeseEnc s
  | .aeseMac1 => Sys2Proof.Machine.execAeseMac1 s
  | .aeseMac2 => Sys2Proof.Machine.execAeseMac2 s
  | .aesdKey => Sys2Proof.Machine.execAesdKey s
  | .aesdEnc => Sys2Proof.Machine.execAesdEnc s
  | .aesdMac1 => Sys2Proof.Machine.execAesdMac1 s
  | .aesdMac2 => Sys2Proof.Machine.execAesdMac2 s
  | .pad => Sys2Proof.Machine.execPad s
  | .unpad => Sys2Proof.Machine.execUnpad s
  | .screset => Sys2Proof.Machine.execScreset s
  | .derive => Sys2Proof.Machine.execDerive s
  | .crypt => Sys2Proof.Machine.execCrypt s
  | .vccrypt => Sys2Proof.Machine.execVccrypt s
  | .vscrypt => Sys2Proof.Machine.execVscrypt s
  | .adoptrmac => Sys2Proof.Machine.execAdoptrmac s
  | .macc => Sys2Proof.Machine.execMacc s
  | .macr => Sys2Proof.Machine.execMacr s
  | .encc => Sys2Proof.Machine.execEncc s
  | .encr => Sys2Proof.Machine.execEncr s
  | .decc => Sys2Proof.Machine.execDecc s
  | .decr => Sys2Proof.Machine.execDecr s
  | .build => Sys2Proof.Machine.execBuild s
  | .builda => Sys2Proof.Machine.execBuilda s
  | .parse => Sys2Proof.Machine.execParse s

end Sys2Proof.Machine
end

