-- ==== Sys2Proof/Machine/Window.lean ====
section
/-! DEFINITION. The host window: the register map (10_state.md R22, R39), what a host read returns and what a host write does,
idle and BUSY (20_memory.md R61 to R71), and one turn of the host. -/

namespace Sys2Proof.Machine

/-! ### The map -/

/-- A row of the register map of 10_state.md R22. -/
structure RegRow where
  base : Nat
  size : Nat
  reg : Reg
  access : Access
deriving DecidableEq, Repr

/-- 10_state.md R22: the register map, row by row. -/
def regMap : List RegRow :=
  [ ⟨0x000, 1, .opc, .issue⟩, ⟨0x001, 1, .ctrl, .rw⟩, ⟨0x002, 1, .status, .w1c⟩, ⟨0x003, 1, .errcode, .ro⟩,
    ⟨0x004, 1, .addr, .rw⟩, ⟨0x005, 1, .seq, .rw⟩, ⟨0x006, 1, .code, .rw⟩, ⟨0x007, 1, .scs, .rw⟩,
    ⟨0x008, 1, .scblen, .rw⟩, ⟨0x009, 1, .scbdata, .rw⟩, ⟨0x00A, 1, .rxctrl, .ro⟩, ⟨0x00C, 2, .dlen, .rw⟩,
    ⟨0x00E, 2, .flen, .rw⟩, ⟨0x010, 2, .opoff, .rw⟩, ⟨0x012, 2, .oplen, .rw⟩, ⟨0x014, 2, .fcs, .ro⟩ ]
  ++ [ ⟨0x040, 16, .key, .wo⟩, ⟨0x050, 16, .sEnc, .wo⟩, ⟨0x060, 16, .sMac1, .wo⟩, ⟨0x070, 16, .sMac2, .wo⟩,
    ⟨0x080, 16, .cmac, .rw⟩, ⟨0x090, 16, .rmac, .rw⟩, ⟨0x0A0, 8, .rndA, .rw⟩, ⟨0x0A8, 8, .rndB, .rw⟩,
    ⟨0x0B0, 16, .ccrypt, .ro⟩, ⟨0x0C0, 16, .scrypt, .ro⟩, ⟨0x0D0, 16, .blk, .rw⟩ ]

/-- What lies at a window offset. -/
inductive Location where
  /-- Byte `i` of a register. -/
  | reg (r : Reg) (i : Nat) (access : Access)
  /-- A byte of DBUF or FBUF. -/
  | buffer
  /-- A reserved offset (R39): RAZ/WI. -/
  | reserved
deriving DecidableEq, Repr

/-- The row of the map an offset falls in. -/
def findRow (off : Nat) : List RegRow → Option RegRow
  | [] => none
  | row :: rest => if row.base ≤ off ∧ off < row.base + row.size then some row else findRow off rest

/-- 20_memory.md R60: what lies at a window offset. -/
def locate (off : Nat) : Location :=
  if Config.dbufBase ≤ off then .buffer
  else
    match findRow off regMap with
    | some row => .reg row.reg (off - row.base) row.access
    | none => .reserved

/-- Byte `i` of a 16-bit register, little-endian (20_memory.md R62; 0 past the end). -/
def halfByte (h : Half) : Nat → Byte
  | 0 => loByte h
  | 1 => hiByte h
  | _ => 0

/-- Byte `i` of a 16-bit register replaced. -/
def setHalfByte (h : Half) (v : Byte) : Nat → Half
  | 0 => mkHalf v (hiByte h)
  | 1 => mkHalf (loByte h) v
  | _ => h

/-- Byte `i` of a one-byte register (0 past the end). -/
def oneByte (b : Byte) : Nat → Byte
  | 0 => b
  | _ => 0

/-- Byte `i` of a one-byte register replaced. -/
def setOneByte (b v : Byte) : Nat → Byte
  | 0 => v
  | _ => b

/-- Byte `i` of the value a register holds; reserved bits of CTRL, STATUS and SEQ read as 0 (R39). -/
def State.regByte (s : State) (r : Reg) (i : Nat) : Byte :=
  match r with
  | .opc => oneByte s.opc i
  | .ctrl => oneByte (s.ctrl &&& ctrlMask) i
  | .status => oneByte (s.status &&& statusMask) i
  | .errcode => oneByte s.errcode i
  | .addr => oneByte s.addr i
  | .seq => oneByte (s.seq &&& seqMask) i
  | .code => oneByte s.code i
  | .scs => oneByte s.scs i
  | .scblen => oneByte s.scblen i
  | .scbdata => oneByte s.scbdata i
  | .rxctrl => oneByte s.rxctrl i
  | .dlen => halfByte s.dlen i
  | .flen => halfByte s.flen i
  | .opoff => halfByte s.opoff i
  | .oplen => halfByte s.oplen i
  | .fcs => halfByte s.fcs i
  | .key => s.key.get i
  | .sEnc => s.sEnc.get i
  | .sMac1 => s.sMac1.get i
  | .sMac2 => s.sMac2.get i
  | .cmac => s.cmac.get i
  | .rmac => s.rmac.get i
  | .rndA => s.rndA.get i
  | .rndB => s.rndB.get i
  | .ccrypt => s.ccrypt.get i
  | .scrypt => s.scrypt.get i
  | .blk => s.blk.get i

/-- Byte `i` of a register that the host may write, written; reserved bits of CTRL and SEQ stay 0 (R24, R28, R39). A register
the host may not write is as before (R22). -/
def State.setRegByte (s : State) (r : Reg) (i : Nat) (v : Byte) : State :=
  match r with
  | .opc | .status | .errcode | .rxctrl | .fcs | .ccrypt | .scrypt => s
  | .ctrl => { s with ctrl := setOneByte s.ctrl (v &&& ctrlMask) i }
  | .addr => { s with addr := setOneByte s.addr v i }
  | .seq => { s with seq := setOneByte s.seq (v &&& seqMask) i }
  | .code => { s with code := setOneByte s.code v i }
  | .scs => { s with scs := setOneByte s.scs v i }
  | .scblen => { s with scblen := setOneByte s.scblen v i }
  | .scbdata => { s with scbdata := setOneByte s.scbdata v i }
  | .dlen => { s with dlen := setHalfByte s.dlen v i }
  | .flen => { s with flen := setHalfByte s.flen v i }
  | .opoff => { s with opoff := setHalfByte s.opoff v i }
  | .oplen => { s with oplen := setHalfByte s.oplen v i }
  | .key => { s with key := s.key.set v i }
  | .sEnc => { s with sEnc := s.sEnc.set v i }
  | .sMac1 => { s with sMac1 := s.sMac1.set v i }
  | .sMac2 => { s with sMac2 := s.sMac2.set v i }
  | .cmac => { s with cmac := s.cmac.set v i }
  | .rmac => { s with rmac := s.rmac.set v i }
  | .rndA => { s with rndA := s.rndA.set v i }
  | .rndB => { s with rndB := s.rndB.set v i }
  | .blk => { s with blk := s.blk.set v i }

/-! ### Host reads -/

/-- What a host read of an offset returns while the block is idle (20_memory.md R65, 10_state.md R22, R39). -/
def State.idleRead (s : State) (off : Nat) : Byte :=
  match locate off with
  | .reg _ _ .wo => 0x00
  | .reg r i _ => s.regByte r i
  | .buffer => s.byte off
  | .reserved => 0x00

/-- R70: the offsets a host read of which is not free while BUSY: STATUS and OPC. -/
def steadyOffset (off : Nat) : Bool := off = 0x000 || off = 0x002

/-- What a host read of an offset returns. While BUSY, STATUS returns its current value and OPC the latched opcode; any other
offset returns a free byte (R70; log 6). -/
def State.hostRead (s : State) (off : Nat) : Byte :=
  if s.busy && !steadyOffset off then Config.busyByte s.life s.busyReads else s.idleRead off

/-- A host read made: the byte goes to the host, and no other part of the block changes (R65). The counter of free bytes
advances when one was used. -/
def State.answerRead (s : State) (off : Nat) : State :=
  { s with
    answers := (off, s.hostRead off) :: s.answers,
    busyReads := if s.busy && !steadyOffset off then s.busyReads + 1 else s.busyReads }

/-! ### Host writes -/

/-- What a host write does while the block is idle (20_memory.md R65, 10_state.md R22, R23, R39). -/
def State.idleWrite (s : State) (off : Nat) (v : Byte) : State :=
  match locate off with
  | .reg _ _ .issue => s.issue v
  | .reg _ _ .w1c => s.acknowledge v
  | .reg r i .rw => s.setRegByte r i v
  | .reg r i .wo => s.setRegByte r i v
  | .reg _ _ .ro => s
  | .buffer => { s with mem := s.mem.set off v }
  | .reserved => s

/-- What a host write does. While BUSY, a write to STATUS is accepted (R25) and every other write is dropped, which sets OVR
(R71; log 7). -/
def State.hostWrite (s : State) (off : Nat) (v : Byte) : State :=
  if s.busy && off ≠ 0x002 then s.setOvr true else s.idleWrite off v

/-! ### Turns -/

/-- One host access made. -/
def State.access (s : State) : HostAccess → State
  | .rd off => s.answerRead off
  | .wr off v => s.hostWrite off v

/-- The host's turn: it makes its next access, if it has one. An idle block with an idle host does nothing (60_exceptions.md
R290). -/
def hostStep (s : State) : Host.Outcome State Fault Refusal :=
  match s.host with
  | [] => .next s
  | a :: rest =>
    if a.wellFormed then .next ({ s with host := rest }.access a)
    else
      match a with
      | .rd off => .fault (.offsetOutsideWindow off)
      | .wr off _ => .fault (.offsetOutsideWindow off)

/-- 40_control.md R111: the instruction in flight has been BUSY for its LATENCY. -/
def State.completionDue (s : State) : Bool := s.busy && s.wait == 0

/-- One cycle gone by of the instruction in flight, if there is one. -/
def State.tick (s : State) : State := { s with wait := if s.busy then s.wait - 1 else s.wait }

/-- The bytes of the instruction in flight: the latched opcode (10_state.md R21, R23). The block fetches nothing else. -/
def State.inFlight (s : State) : Bytes := [s.opc]

end Sys2Proof.Machine
end

