-- ==== Sys2Proof/Machine/Engine.lean ====
section
/-! DEFINITION. The engine's turn: the instruction in flight completes (40_control.md R110, R111; 30_encoding.md R85). -/

namespace Sys2Proof.Machine

/-- The completion of the instruction whose bytes are `bs`: its meaning, or ILLEGAL for an undefined opcode (R85). -/
def completeBytes (bs : Bytes) (s : State) : Host.Outcome State Fault Refusal :=
  match decode bs with
  | .ok (i, _) => exec i s
  | .error _ => completeIllegal s

/-- The instruction in flight completes. -/
def engineStep (s : State) : Host.Outcome State Fault Refusal := completeBytes s.inFlight s

end Sys2Proof.Machine
end

