-- ==== Sys2Proof/Machine/Step.lean ====
section
/-! DEFINITION. One step of the machine: the engine completes the instruction in flight when its LATENCY has gone by, and
otherwise the host has a turn (20_memory.md R68 to R70; 40_control.md R110, R111; logs 1 to 3). -/

namespace Sys2Proof.Machine

/-- One step. -/
def step (s : State) : Host.Outcome State Fault Refusal :=
  if s.completionDue then engineStep s else hostStep s.tick

/-- The state in which the opcode `w` has been accepted and its LATENCY has gone by, so that the next step runs it: OPC, BUSY
and DONE as R110 leaves them, and no cycle to wait. It stands for the host's write to OPC (log 1). -/
def State.withFetchWord (s : State) (_nbits w : Nat) : State :=
  { (s.setBusy true).setDone false with opc := BitVec.ofNat 8 w, wait := 0 }

end Sys2Proof.Machine
end

