-- ==== Sys2Proof/Safety.lean ====
section
/-! DEFINITION. The terms the statements are written in: how an instruction ends, what it leaves unchanged, what a wire frame is
byte by byte (30_encoding.md R88 to R96), the invariant of the machine, and what counts as a safe step. -/

namespace Sys2Proof.Machine

/-! ### Flags -/

/-- The seven flags of STATUS (10_state.md R25). -/
inductive Flag where
  | busy | done | err | ovr | established | matched | defkey
deriving DecidableEq, Repr

/-- The value of a flag. -/
def State.flag (s : State) : Flag → Bool
  | .busy => s.busy
  | .done => s.done
  | .err => s.err
  | .ovr => s.ovr
  | .established => s.established
  | .matched => s.matched
  | .defkey => s.defkey

/-! ### How an instruction ends, and what it leaves unchanged -/

/-- 40_control.md R111: completion without an error: ERRCODE 0x00, BUSY 0, DONE 1, ERR as it was. -/
def Succeeds (s t : State) : Prop := t.errcode = 0x00 ∧ t.busy = false ∧ t.done = true ∧ t.err = s.err

/-- R111, 60_exceptions.md R282: completion with an error: ERRCODE its code, BUSY 0, DONE 1, ERR 1. -/
def Fails (e : ErrCode) (t : State) : Prop := t.errcode = e.toByte ∧ t.busy = false ∧ t.done = true ∧ t.err = true

/-- The wait, the random source and the host side are as before. -/
def HiddenKept (s t : State) : Prop :=
  t.wait = s.wait ∧ t.rng = s.rng ∧ t.life = s.life ∧ t.busyReads = s.busyReads ∧ t.latencies = s.latencies ∧ t.host = s.host ∧
    t.answers = s.answers

/-- The frame of an instruction. Every register but STATUS, ERRCODE and `regs` is unchanged, every flag but BUSY, DONE, ERR and
`flags`, every byte of the buffers outside `stored`, and all hidden state. -/
def Unchanged (regs : List Reg) (flags : List Flag) (stored : Nat → Prop) (s t : State) : Prop :=
  (∀ r, r ∉ Reg.status :: Reg.errcode :: regs → ∀ i, t.regByte r i = s.regByte r i) ∧
  (∀ f, f ∉ Flag.busy :: Flag.done :: Flag.err :: flags → t.flag f = s.flag f) ∧
  (∀ a, ¬ stored a → t.byte a = s.byte a) ∧
  HiddenKept s t

/-- No offset: a form that stores nothing. -/
def noStore : Nat → Prop := fun _ => False

/-- The offsets of DBUF[0..n). -/
def dbufSpan (n : Nat) : Nat → Prop := fun a => Config.dbufBase ≤ a ∧ a < Config.dbufBase + n

/-- The offsets of FBUF[0..n). -/
def fbufSpan (n : Nat) : Nat → Prop := fun a => Config.fbufBase ≤ a ∧ a < Config.fbufBase + n

/-- R282 for an instruction that writes no MATCH: the error and nothing else. -/
def FailsCleanly (e : ErrCode) (s t : State) : Prop := Fails e t ∧ Unchanged [] [] noStore s t

/-- R282 for a MATCH writer: the error, MATCH 0, and nothing else. -/
def FailsUnmatched (e : ErrCode) (s t : State) : Prop :=
  Fails e t ∧ t.matched = false ∧ Unchanged [] [.matched] noStore s t

/-- R282: the instructions that write MATCH. -/
def matchWriter (i : Instr) : Bool := i ∈ [.vcrc16, .vcksum8, .vccrypt, .vscrypt, .parse]

/-- The register a MAC of a direction overwrites (45_mac_cbc.md R211). -/
def accumulatorReg : Dir → Reg
  | .command => .cmac
  | .reply => .rmac

/-- The value of the accumulator of a direction: CMAC for a command, RMAC for a reply. -/
def State.accumulator (s : State) : Dir → Block
  | .command => s.cmac
  | .reply => s.rmac

/-- The other direction. -/
def Dir.other : Dir → Dir
  | .command => .reply
  | .reply => .command

/-! ### The wire frame, composed field by field -/

/-- The security block: length, type, and the data byte when the length is 3 (30_encoding.md R93). -/
def wireScb (scblen scs scbdata : Byte) : Bytes := if scblen = 3 then [scblen, scs, scbdata] else [scblen, scs]

/-- R88: the frame from SOM to the end of the data, for a frame of total length `l`. -/
def wireBody (l : Nat) (addr ctrl : Byte) (scb : Bytes) (code : Byte) (data : Bytes) : Bytes :=
  [0x53, addr, BitVec.ofNat 8 (l % 256), BitVec.ofNat 8 (l / 256), ctrl] ++ scb ++ [code] ++ data

/-- R88, R95: the total length L = 6 + S + n + M + C. -/
def wireLength (ctrl : Byte) (scb data mac : Bytes) : Nat :=
  6 + scb.length + data.length + mac.length + (if ctrl.getLsbD 2 then 2 else 1)

/-- R96: the FCS of a span: the CRC-16, low byte first, or the 8-bit checksum. -/
def wireFcs (crc : Bool) (f : Bytes) : Bytes := if crc then [loByte (crc16 f), hiByte (crc16 f)] else [cks8 f]

/-- R88: the whole frame. -/
def wireFrame (addr ctrl : Byte) (scb : Bytes) (code : Byte) (data mac : Bytes) : Bytes :=
  let f := wireBody (wireLength ctrl scb data mac) addr ctrl scb code data ++ mac
  f ++ wireFcs (ctrl.getLsbD 2) f

/-- FBUF holds the frame `f`, and FLEN admits it; bytes past the frame do not matter (92_eei_decisions.md D23). -/
def HoldsFrame (s : State) (f : Bytes) : Prop :=
  f.length ≤ s.flen.toNat ∧ s.flen.toNat ≤ 2048 ∧ s.fbuf 0 f.length = f

/-- The first code whose condition holds. -/
def firstError : List (Bool × ErrCode) → Option ErrCode
  | [] => none
  | (c, e) :: rest => if c then some e else firstError rest

/-! ### Programs of instructions, and the machine as a whole -/

/-- Instructions completed one after another, each from the state the one before left. -/
def execAll : List Instr → State → Host.Outcome State Fault Refusal
  | [], s => .next s
  | i :: is, s =>
    match exec i s with
    | .next t => execAll is t
    | .fault r => .fault r
    | .refused r => .refused r

/-- What is true of every state the block can be in: the buffers are in canonical form; the reserved bits of CTRL, SEQ and
STATUS are 0 (10_state.md R39); ERRCODE is one of the codes of 30_encoding.md R97; the block is never BUSY and DONE at once
(40_control.md R110, R111); and an idle block waits for nothing. -/
structure State.Inv (s : State) : Prop where
  memory : s.mem.wf = true
  ctrlReserved : s.ctrl &&& ~~~ctrlMask = 0
  seqReserved : s.seq &&& ~~~seqMask = 0
  statusReserved : s.status &&& ~~~statusMask = 0
  errcode : s.errcode ≤ 0x0C
  busyNotDone : ¬ (s.busy = true ∧ s.done = true)
  idleWait : s.busy = false → s.wait = 0

/-- The two states differ at most in the four write-only key registers (10_state.md R56). -/
def SameButKeys (s t : State) : Prop :=
  t = { s with key := t.key, sEnc := t.sEnc, sMac1 := t.sMac1, sMac2 := t.sMac2 }

/-- A safe step: it stops at nothing. -/
def Safe (o : Host.Outcome State Fault Refusal) : Prop := ∃ t, o = .next t

end Sys2Proof.Machine
end

