-- ==== Sys2Proof/Certificates/Slice0/Obligations.lean ====
section
/-! DEFINITION. What is stated of the model. Each statement's docstring names the rule of spec/ it formalises. Nothing here is
proved. -/

open Sys2Proof Sys2Proof.Machine

/-! ### Encoding -/

/-- 30_encoding.md R83, R84: one opcode of each family, written bit by bit. -/
def Obligations.OpcodeBytesDecodeToTheirInstructions : Prop :=
  decode [0b00000000] = .ok (.nop, []) ∧ decode [0b00000001] = .ok (.sreset, []) ∧
  decode [0b00010011] = .ok (.vcksum8, []) ∧ decode [0b00100110] = .ok (.aesdMac1, []) ∧
  decode [0b00110001] = .ok (.unpad, []) ∧ decode [0b01000100] = .ok (.vscrypt, []) ∧
  decode [0b01010001] = .ok (.macr, []) ∧ decode [0b01100011] = .ok (.decr, []) ∧
  decode [0b01110001] = .ok (.builda, []) ∧ decode [0b10000000] = .ok (.parse, [])

/-- 30_encoding.md R80, R84: decoding an encoded instruction gives it back, with the bytes after it; and a byte that decodes to
an instruction is that instruction's encoding. -/
def Obligations.DecodeAndEncodeAgree : Prop :=
  (∀ (i : Instr) (rest : Bytes), decode (encode i ++ rest) = .ok (i, rest)) ∧
  (∀ (b : Byte) (rest r : Bytes) (i : Instr), decode (b :: rest) = .ok (i, r) → encode i = [b] ∧ r = rest)

/-- 30_encoding.md R81, R83, R85: a byte is an opcode exactly when it has the form of its group's format, and 225 bytes are
not. -/
def Obligations.UndefinedOpcodesAreThoseOfNoFormat : Prop :=
  (∀ b : Byte, (decodeByte b).isSome = opcodeWellFormed b) ∧
  ((List.range 256).filter fun n => (decodeByte (BitVec.ofNat 8 n)).isNone).length = 225

/-- 30_encoding.md R94: the direction, the MAC and the encryption of the eight SCS types. -/
def Obligations.ScsTypesMeanWhatTheTableSays : Prop :=
  (∀ scs : Byte, scsValid scs = true ↔ scs ∈ [0x11, 0x12, 0x13, 0x14, 0x15, 0x16, 0x17, (0x18 : Byte)]) ∧
  (∀ scs : Byte, scsHasMac scs = true ↔ scs ∈ [0x15, 0x16, 0x17, (0x18 : Byte)]) ∧
  (∀ scs : Byte, scsEncrypts scs = true ↔ scs ∈ [0x17, (0x18 : Byte)]) ∧
  scsDir 0x15 = .command ∧ scsDir 0x16 = .reply ∧ scsDir 0x17 = .command ∧ scsDir 0x18 = .reply

/-! ### Reset, issue and completion -/

/-- 70_reset_and_hazards.md R310: after every power-on, of which `State.reset` is one, every register but CTRL and SCBLEN is 0, the
block is idle with IRQ low, and it accepts the first OPC write. R311: every buffer byte then is the free value BUF_INIT. That a free
value stands at each offset in each life is the model's choice (logs 4, 22). -/
def Obligations.PowerOnResetValues : Prop :=
  State.reset = State.powerOn 0 ∧
  ∀ (n : Nat) (s : State), s = State.powerOn n →
    (∀ r i, s.regByte r i = if r = .ctrl ∧ i = 0 then 0x01 else if r = .scblen ∧ i = 0 then 0x02 else 0x00) ∧
    s.ctrl = 0x01 ∧ s.status = 0x00 ∧ s.seq = 0x00 ∧ s.useCrc = true ∧ s.responder = false ∧ s.irqEn = false ∧
    s.busy = false ∧ s.done = false ∧ s.established = false ∧ s.irq = false ∧
    (∀ v, (s.hostWrite 0x000 v).opc = v ∧ (s.hostWrite 0x000 v).busy = true) ∧
    (∀ a, 0x400 ≤ a → a < 0x1000 → s.hostRead a = Config.bufInit n a)

/-- 40_control.md R110: a host write to OPC while idle latches the byte, sets BUSY and clears DONE (so IRQ falls), and changes
nothing else of the block but its wait. That the LATENCY, less one, is the next entry of `latencies` is the model's choice (log 2). -/
def Obligations.IdleOpcWriteIssues : Prop :=
  ∀ (s : State) (v : Byte) (rest : List HostAccess), s.busy = false → s.host = .wr 0x000 v :: rest →
    ∃ t, step s = .next t ∧ t.opc = v ∧ t.busy = true ∧ t.done = false ∧ t.irq = false ∧ t.host = rest ∧
      t.wait = s.latencies.headD 0 ∧ t.latencies = s.latencies.tail ∧
      t.err = s.err ∧ t.errcode = s.errcode ∧
      Unchanged [.opc] [] noStore s { t with host := s.host, wait := s.wait, latencies := s.latencies }

/-- 40_control.md R110, R111, 20_memory.md R70: when the instruction in flight has waited for its LATENCY, a step is its
meaning; before that, and when the block is idle, the host has the turn. The order of turns is the model's (logs 2, 3). -/
def Obligations.StepRunsTheInstructionInFlight : Prop :=
  (∀ (s : State) (i : Instr), s.busy = true → s.wait = 0 → decode s.inFlight = .ok (i, []) → step s = exec i s) ∧
  (∀ s : State, s.busy = true → s.wait ≠ 0 → step s = hostStep { s with wait := s.wait - 1 }) ∧
  (∀ s : State, s.busy = false → step s = hostStep s)

/-- 30_encoding.md R85: an undefined opcode completes with ILLEGAL and ERR = 1 and changes no other state. That it may also wait
for a LATENCY is the model's reading (log 9). -/
def Obligations.UndefinedOpcodeCompletesWithIllegal : Prop :=
  ∀ s : State, s.busy = true → s.wait = 0 → opcodeWellFormed s.opc = false →
    ∃ t, step s = .next t ∧ FailsCleanly .illegal s t

/-- 40_control.md R111: every instruction completes in every state: BUSY 0, DONE 1, an ERRCODE of R97, ERR set when it is not 0,
and OPC as it was. -/
def Obligations.EveryInstructionCompletes : Prop :=
  ∀ (i : Instr) (s : State), ∃ t, exec i s = .next t ∧ t.busy = false ∧ t.done = true ∧ t.opc = s.opc ∧
    t.errcode ≤ 0x0C ∧ (t.errcode ≠ 0x00 → t.err = true) ∧ (i ≠ .sreset → t.errcode = 0x00 → t.err = s.err)

/-- 40_control.md R111: "Every issued instruction completes": within `wait` + 1 steps the block is no longer BUSY, whatever the
host does inside its window. The count of steps is the model's LATENCY (log 2). -/
def Obligations.BusyBlockCompletesInBoundedSteps : Prop :=
  ∀ s : State, s.busy = true → (∀ a ∈ s.host, a.wellFormed = true) →
    ∃ k, k ≤ s.wait + 1 ∧ ∃ t : State, Host.Core.run Sys2Proof.core k s = .next t ∧ t.busy = false

/-- 60_exceptions.md R282: an error writes ERRCODE, ERR, BUSY and DONE, MATCH for the five MATCH writers, and nothing else; the
one exception is PARSE's MACMISMATCH, which keeps the fields, the data and the accumulator it wrote. -/
def Obligations.ErrorsHaveNoPartialEffect : Prop :=
  ∀ (i : Instr) (s t : State), exec i s = .next t → t.errcode ≠ 0x00 →
    t.err = true ∧ t.busy = false ∧ t.done = true ∧ (matchWriter i = true → t.matched = false) ∧
    (¬ (i = .parse ∧ t.errcode = 0x0C) → Unchanged [] (if matchWriter i then [.matched] else []) noStore s t) ∧
    (i = .parse ∧ t.errcode = 0x0C →
      Unchanged [.addr, .seq, .rxctrl, .scblen, .scs, .scbdata, .code, .dlen, accumulatorReg (scsDir t.scs)] [.matched]
        (dbufSpan t.dlen.toNat) s t)

/-- 10_state.md R25: only VSCRYPT and ADOPTRMAC set ESTABLISHED and only SCRESET and SRESET clear it; and an instruction that
ends in an error never changes it (60_exceptions.md R281). -/
def Obligations.OnlyHandshakeInstructionsChangeEstablished : Prop :=
  ∀ (i : Instr) (s t : State), exec i s = .next t →
    (s.established = false → t.established = true → i = .vscrypt ∨ i = .adoptrmac) ∧
    (s.established = true → t.established = false → i = .screset ∨ i = .sreset) ∧
    (t.errcode ≠ 0x00 → t.established = s.established)

/-- 20_memory.md R66: an instruction writes DBUF only below the new DLEN and FBUF only below the new FLEN. -/
def Obligations.BufferWritesStayBelowTheNewLengths : Prop :=
  ∀ (i : Instr) (s t : State), exec i s = .next t →
    (∀ k, t.dlen.toNat ≤ k → k < 1024 → t.dbufByte k = s.dbufByte k) ∧
    (∀ k, t.flen.toNat ≤ k → t.fbufByte k = s.fbufByte k)

/-- 60_exceptions.md R285: IRQ = DONE AND IRQ_EN: it follows IRQ_EN at every completion (SRESET clears IRQ_EN, so it is low
there), falls when the next opcode is accepted or the host clears DONE, the host's clearing of ERR or OVR alone does not move it,
and a host write to CTRL enables or masks it. -/
def Obligations.IrqFollowsDoneAndItsEnable : Prop :=
  (∀ (i : Instr) (s t : State), exec i s = .next t → t.irq = (if i = .sreset then false else s.irqEn)) ∧
  (∀ (s : State) (v : Byte), s.busy = false → (s.hostWrite 0x000 v).irq = false) ∧
  (∀ (s : State) (v : Byte), v.getLsbD 1 = true → (s.hostWrite 0x002 v).irq = false) ∧
  (∀ (s : State) (v : Byte), v.getLsbD 1 = false → (s.hostWrite 0x002 v).irq = s.irq) ∧
  (∀ (s : State) (v : Byte), s.busy = false → (s.hostWrite 0x001 v).irq = (s.done && v.getLsbD 2))

/-! ### Control -/

/-- 40_control.md R112 NOP. -/
def Obligations.NopOnlyCompletes : Prop :=
  ∀ s : State, ∃ t, exec .nop s = .next t ∧ Succeeds s t ∧ Unchanged [] [] noStore s t

/-- 40_control.md R113 SRESET: every register but OPC at its reset value, STATUS = 0x02, the buffers and the random source as
they were. -/
def Obligations.SresetClearsTheRegisters : Prop :=
  ∀ s : State, ∃ t, exec .sreset s = .next t ∧
    (∀ r, r ≠ .opc → r ≠ .status → ∀ i, t.regByte r i = State.reset.regByte r i) ∧
    t.ctrl = 0x01 ∧ t.seq = 0x00 ∧ t.opc = s.opc ∧ t.status = 0x02 ∧ t.errcode = 0x00 ∧ t.irq = false ∧
    (∀ a, t.byte a = s.byte a) ∧ HiddenKept s t

/-! ### CRC-16 and checksum -/

/-- 41_crc.md R120: the values of `crc16` on the three captured frames and on the empty string, and its step: each further byte
is XORed into the high byte and eight shifts follow, each with 0x1021 XORed in when bit 15 was 1. -/
def Obligations.Crc16MatchesTheCapturedFrames : Prop :=
  crc16 [0x53, 0x00, 0x08, 0x00, 0x04, 0x60] = 0xAAEB ∧
  crc16 [0x53, 0x80, 0x08, 0x00, 0x05, 0x40] = 0x9F68 ∧
  crc16 [0x53, 0x00, 0x0A, 0x00, 0x0C, 0x02, 0x15, 0x60] = 0xD558 ∧
  crc16 [] = 0x1D0F ∧
  (∀ (b : Bytes) (x : Byte), crc16 (b ++ [x]) =
    (List.range 8).foldl (fun c _ => if c.getLsbD 15 then (c <<< 1) ^^^ 0x1021 else c <<< 1)
      (crc16 b ^^^ (x.setWidth 16 <<< 8)))

/-- 41_crc.md R121: `cks8` is the two's complement of the 8-bit sum. -/
def Obligations.Cks8IsTheTwosComplementOfTheSum : Prop :=
  (∀ b : Bytes, (cks8 b).toNat = (256 - (b.map BitVec.toNat).sum % 256) % 256) ∧
  (∀ b : Bytes, ((b.map BitVec.toNat).sum + (cks8 b).toNat) % 256 = 0) ∧
  cks8 [] = 0x00 ∧ cks8 [0x53, 0x00, 0x07, 0x00, 0x00, 0x60] = 0x46

/-- 41_crc.md R122 CRC16. -/
def Obligations.Crc16WritesFcs : Prop :=
  ∀ s : State,
    (s.opoff.toNat + s.oplen.toNat ≤ 2048 → ∃ t, exec .crc16 s = .next t ∧
      t.fcs = crc16 (s.fbuf s.opoff.toNat s.oplen.toNat) ∧ Succeeds s t ∧ Unchanged [.fcs] [] noStore s t) ∧
    (2048 < s.opoff.toNat + s.oplen.toNat → ∃ t, exec .crc16 s = .next t ∧ FailsCleanly .range s t)

/-- 41_crc.md R123 CKSUM8. -/
def Obligations.Cksum8WritesFcs : Prop :=
  ∀ s : State,
    (s.opoff.toNat + s.oplen.toNat ≤ 2048 → ∃ t, exec .cksum8 s = .next t ∧
      t.fcs = (cks8 (s.fbuf s.opoff.toNat s.oplen.toNat)).setWidth 16 ∧ Succeeds s t ∧ Unchanged [.fcs] [] noStore s t) ∧
    (2048 < s.opoff.toNat + s.oplen.toNat → ∃ t, exec .cksum8 s = .next t ∧ FailsCleanly .range s t)

/-- 41_crc.md R124 VCRC16: a span that is a body followed by the body's CRC-16, low byte first, is accepted; any other span of
two bytes or more is a CHECKSUM error. -/
def Obligations.Vcrc16ChecksTheTrailingCrc : Prop :=
  ∀ s : State,
    (2048 < s.opoff.toNat + s.oplen.toNat → ∃ t, exec .vcrc16 s = .next t ∧ FailsUnmatched .range s t) ∧
    (s.opoff.toNat + s.oplen.toNat ≤ 2048 → s.oplen.toNat < 2 →
      ∃ t, exec .vcrc16 s = .next t ∧ FailsUnmatched .length s t) ∧
    (s.opoff.toNat + s.oplen.toNat ≤ 2048 → ∀ body : Bytes,
      s.fbuf s.opoff.toNat s.oplen.toNat = body ++ [loByte (crc16 body), hiByte (crc16 body)] →
      ∃ t, exec .vcrc16 s = .next t ∧ t.fcs = crc16 body ∧ t.matched = true ∧ Succeeds s t ∧
        Unchanged [.fcs] [.matched] noStore s t) ∧
    (s.opoff.toNat + s.oplen.toNat ≤ 2048 → 2 ≤ s.oplen.toNat →
      (∀ body : Bytes, s.fbuf s.opoff.toNat s.oplen.toNat ≠ body ++ [loByte (crc16 body), hiByte (crc16 body)]) →
      ∃ t, exec .vcrc16 s = .next t ∧ FailsUnmatched .checksum s t)

/-- 41_crc.md R125 VCKSUM8: a span whose bytes sum to 0 mod 256 is accepted, any other non-empty span is a CHECKSUM error. -/
def Obligations.Vcksum8ChecksTheTrailingChecksum : Prop :=
  ∀ s : State,
    (2048 < s.opoff.toNat + s.oplen.toNat → ∃ t, exec .vcksum8 s = .next t ∧ FailsUnmatched .range s t) ∧
    (s.opoff.toNat + s.oplen.toNat ≤ 2048 → s.oplen.toNat < 1 →
      ∃ t, exec .vcksum8 s = .next t ∧ FailsUnmatched .length s t) ∧
    (s.opoff.toNat + s.oplen.toNat ≤ 2048 → 1 ≤ s.oplen.toNat →
      ((s.fbuf s.opoff.toNat s.oplen.toNat).map BitVec.toNat).sum % 256 = 0 →
      ∃ t, exec .vcksum8 s = .next t ∧ t.fcs = (s.fbufByte (s.opoff.toNat + s.oplen.toNat - 1)).setWidth 16 ∧
        t.matched = true ∧ Succeeds s t ∧ Unchanged [.fcs] [.matched] noStore s t) ∧
    (s.opoff.toNat + s.oplen.toNat ≤ 2048 → 1 ≤ s.oplen.toNat →
      ((s.fbuf s.opoff.toNat s.oplen.toNat).map BitVec.toNat).sum % 256 ≠ 0 →
      ∃ t, exec .vcksum8 s = .next t ∧ FailsUnmatched .checksum s t)

/-- 41_crc.md R126: a change of one byte of an accepted span, the FCS bytes included, is always detected, by the CRC-16 and by
the checksum; so every single-bit flip is. -/
def Obligations.OneByteChangesAreAlwaysDetected : Prop :=
  ∀ i ∈ [Instr.vcrc16, Instr.vcksum8], ∀ (s t : State) (k : Nat) (v : Byte),
    exec i s = .next t → t.errcode = 0x00 → k < s.oplen.toNat → v ≠ s.fbufByte (s.opoff.toNat + k) →
    ∃ u, exec i (s.writeFbuf (s.opoff.toNat + k) [v]) = .next u ∧
      FailsUnmatched .checksum (s.writeFbuf (s.opoff.toNat + k) [v]) u

/-! ### Padding -/

/-- 42_padding.md R141 PAD. -/
def Obligations.PadPadsInPlace : Prop :=
  ∀ s : State,
    (s.dlen.toNat ≤ 1023 → ∃ t, exec .pad s = .next t ∧ t.dlen.toNat = 16 * (s.dlen.toNat / 16 + 1) ∧
      t.dbuf 0 (16 * (s.dlen.toNat / 16 + 1)) = pad (s.dbuf 0 s.dlen.toNat) ∧ Succeeds s t ∧
      Unchanged [.dlen] [] (dbufSpan (16 * (s.dlen.toNat / 16 + 1))) s t) ∧
    (1023 < s.dlen.toNat → ∃ t, exec .pad s = .next t ∧ FailsCleanly .range s t)

/-- 42_padding.md R142 UNPAD: data followed by one 0x80 and any number of 0x00 has that data's length; anything else has no
marker. -/
def Obligations.UnpadFindsTheLastMarker : Prop :=
  ∀ s : State,
    (1024 < s.dlen.toNat → ∃ t, exec .unpad s = .next t ∧ FailsCleanly .range s t) ∧
    (s.dlen.toNat ≤ 1024 → ∀ (d : Bytes) (z : Nat), s.dbuf 0 s.dlen.toNat = d ++ 0x80 :: List.replicate z 0x00 →
      ∃ t, exec .unpad s = .next t ∧ t.dlen.toNat = d.length ∧ Succeeds s t ∧ Unchanged [.dlen] [] noStore s t) ∧
    (s.dlen.toNat ≤ 1024 → (∀ (d : Bytes) (z : Nat), s.dbuf 0 s.dlen.toNat ≠ d ++ 0x80 :: List.replicate z 0x00) →
      ∃ t, exec .unpad s = .next t ∧ FailsCleanly .nopadmark s t)

/-- 42_padding.md R143: the laws of `pad`, and that UNPAD undoes PAD. -/
def Obligations.PaddingLaws : Prop :=
  (∀ d : Bytes, (∃ z, pad d = d ++ 0x80 :: List.replicate z 0x00) ∧ (pad d).length % 16 = 0 ∧
    d.length + 1 ≤ (pad d).length ∧ (pad d).length ≤ d.length + 16) ∧
  (∀ s : State, s.dlen.toNat ≤ 1023 → ∃ t u, exec .pad s = .next t ∧ exec .unpad t = .next u ∧ u.errcode = 0x00 ∧
    u.dlen = s.dlen ∧ u.dbuf 0 s.dlen.toNat = s.dbuf 0 s.dlen.toNat)

/-! ### AES-128 -/

/-- 43_aes.md R153, R154: the table S is the inverse in GF(2^8) put through the affine map, and InvS undoes it. -/
def Obligations.SboxIsTheInverseThroughTheAffineMap : Prop :=
  (∀ x : Byte, ∃ b : Byte, (x = 0 → b = 0) ∧ (x ≠ 0 → gmul x b = 1) ∧
    sbox x = b ^^^ b.rotateLeft 1 ^^^ b.rotateLeft 2 ^^^ b.rotateLeft 3 ^^^ b.rotateLeft 4 ^^^ 0x63) ∧
  (∀ x : Byte, invSbox (sbox x) = x) ∧ (∀ x : Byte, sbox (invSbox x) = x)

/-- 43_aes.md R163: the two FIPS-197 known answers, and that D(k, ·) is the inverse of E(k, ·) for every key and block. -/
def Obligations.AesDecryptionInvertsEncryption : Prop :=
  (aesEnc ⟨⟨0x00, 0x01, 0x02, 0x03⟩, ⟨0x04, 0x05, 0x06, 0x07⟩, ⟨0x08, 0x09, 0x0A, 0x0B⟩, ⟨0x0C, 0x0D, 0x0E, 0x0F⟩⟩
    ⟨⟨0x00, 0x11, 0x22, 0x33⟩, ⟨0x44, 0x55, 0x66, 0x77⟩, ⟨0x88, 0x99, 0xAA, 0xBB⟩, ⟨0xCC, 0xDD, 0xEE, 0xFF⟩⟩ =
    ⟨⟨0x69, 0xC4, 0xE0, 0xD8⟩, ⟨0x6A, 0x7B, 0x04, 0x30⟩, ⟨0xD8, 0xCD, 0xB7, 0x80⟩, ⟨0x70, 0xB4, 0xC5, 0x5A⟩⟩) ∧
  (aesEnc ⟨⟨0x2B, 0x7E, 0x15, 0x16⟩, ⟨0x28, 0xAE, 0xD2, 0xA6⟩, ⟨0xAB, 0xF7, 0x15, 0x88⟩, ⟨0x09, 0xCF, 0x4F, 0x3C⟩⟩
    ⟨⟨0x32, 0x43, 0xF6, 0xA8⟩, ⟨0x88, 0x5A, 0x30, 0x8D⟩, ⟨0x31, 0x31, 0x98, 0xA2⟩, ⟨0xE0, 0x37, 0x07, 0x34⟩⟩ =
    ⟨⟨0x39, 0x25, 0x84, 0x1D⟩, ⟨0x02, 0xDC, 0x09, 0xFB⟩, ⟨0xDC, 0x11, 0x85, 0x97⟩, ⟨0x19, 0x6A, 0x0B, 0x32⟩⟩) ∧
  (∀ k p : Block, aesDec k (aesEnc k p) = p) ∧ (∀ k c : Block, aesEnc k (aesDec k c) = c)

/-- 43_aes.md R161 AESE.KEY, AESE.ENC, AESE.MAC1, AESE.MAC2 and R162 AESD.KEY, AESD.ENC, AESD.MAC1, AESD.MAC2: BLK in place under
the key register the mnemonic names. -/
def Obligations.AesInstructionsTransformBlk : Prop :=
  ∀ s : State, ∀ p ∈ [(Instr.aeseKey, s.key, aesEnc), (.aeseEnc, s.sEnc, aesEnc), (.aeseMac1, s.sMac1, aesEnc),
      (.aeseMac2, s.sMac2, aesEnc), (.aesdKey, s.key, aesDec), (.aesdEnc, s.sEnc, aesDec), (.aesdMac1, s.sMac1, aesDec),
      (.aesdMac2, s.sMac2, aesDec)],
    ∃ t, exec p.1 s = .next t ∧ t.blk = p.2.2 p.2.1 s.blk ∧ Succeeds s t ∧ Unchanged [.blk] [] noStore s t

/-! ### Security Context -/

/-- 44_security_context.md R180 SCRESET, whatever eight bytes the random source gives; that the model numbers the draws by `rng` is
its own (logs 5, 22), and that DEFAULT_KEY is 30 31 to 3F is the spec's value from general knowledge, taken as a choice (log 14). -/
def Obligations.ScresetClearsTheSessionAndDraws : Prop :=
  ∀ s : State, ∃ t, exec .screset s = .next t ∧
    t.sEnc = .zero ∧ t.sMac1 = .zero ∧ t.sMac2 = .zero ∧ t.cmac = .zero ∧ t.rmac = .zero ∧ t.ccrypt = .zero ∧
    t.scrypt = .zero ∧
    (s.responder = false → t.rndA = Config.rngDraw s.life s.rng ∧ t.rndB = s.rndB) ∧
    (s.responder = true → t.rndB = Config.rngDraw s.life s.rng ∧ t.rndA = s.rndA) ∧
    t.established = false ∧
    (t.defkey = true ↔ s.key = Block.ofBytes ((List.range 16).map fun i => BitVec.ofNat 8 (0x30 + i))) ∧
    t.rng = s.rng + 1 ∧ Succeeds s t ∧
    Unchanged [.sEnc, .sMac1, .sMac2, .cmac, .rmac, .ccrypt, .scrypt, .rndA, .rndB] [.established, .defkey] noStore s
      { t with rng := s.rng }

/-- 44_security_context.md R182 DERIVE: RND_A[6..8) plays no part. -/
def Obligations.DeriveMakesTheSessionKeys : Prop :=
  ∀ s : State, ∃ t, exec .derive s = .next t ∧
    t.sEnc = aesEnc s.key (Block.ofBytes ([0x01, 0x82] ++ s.rndA.toBytes.take 6 ++ List.replicate 8 0x00)) ∧
    t.sMac1 = aesEnc s.key (Block.ofBytes ([0x01, 0x01] ++ s.rndA.toBytes.take 6 ++ List.replicate 8 0x00)) ∧
    t.sMac2 = aesEnc s.key (Block.ofBytes ([0x01, 0x02] ++ s.rndA.toBytes.take 6 ++ List.replicate 8 0x00)) ∧
    Succeeds s t ∧ Unchanged [.sEnc, .sMac1, .sMac2] [] noStore s t

/-- 44_security_context.md R183 CRYPT. -/
def Obligations.CryptMakesBothCryptograms : Prop :=
  ∀ s : State, ∃ t, exec .crypt s = .next t ∧
    t.ccrypt = aesEnc s.sEnc (Block.ofBytes (s.rndA.toBytes ++ s.rndB.toBytes)) ∧
    t.scrypt = aesEnc s.sEnc (Block.ofBytes (s.rndB.toBytes ++ s.rndA.toBytes)) ∧
    Succeeds s t ∧ Unchanged [.ccrypt, .scrypt] [] noStore s t

/-- 44_security_context.md R184 VCCRYPT: the comparison covers all 16 bytes. -/
def Obligations.VccryptComparesAllSixteenBytes : Prop :=
  ∀ s : State,
    ((∀ i, i < 16 → s.blk.get i = s.ccrypt.get i) → ∃ t, exec .vccrypt s = .next t ∧ t.matched = true ∧ Succeeds s t ∧
      Unchanged [] [.matched] noStore s t) ∧
    (∀ i, i < 16 → s.blk.get i ≠ s.ccrypt.get i → ∃ t, exec .vccrypt s = .next t ∧ FailsUnmatched .cryptmismatch s t)

/-- 44_security_context.md R185 VSCRYPT: on a match the initial R-MAC and ESTABLISHED, on a mismatch neither. -/
def Obligations.VscryptEstablishesOnMatch : Prop :=
  ∀ s : State,
    ((∀ i, i < 16 → s.blk.get i = s.scrypt.get i) → ∃ t, exec .vscrypt s = .next t ∧
      t.rmac = aesEnc s.sMac2 (aesEnc s.sMac1 s.scrypt) ∧ t.established = true ∧ t.matched = true ∧ Succeeds s t ∧
      Unchanged [.rmac] [.established, .matched] noStore s t) ∧
    (∀ i, i < 16 → s.blk.get i ≠ s.scrypt.get i → ∃ t, exec .vscrypt s = .next t ∧ FailsUnmatched .cryptmismatch s t)

/-- 44_security_context.md R186 ADOPTRMAC. -/
def Obligations.AdoptrmacEstablishes : Prop :=
  ∀ s : State, ∃ t, exec .adoptrmac s = .next t ∧ t.rmac = s.blk ∧ t.established = true ∧ Succeeds s t ∧
    Unchanged [.rmac] [.established] noStore s t

/-- 44_security_context.md R187, handshake determinism: two blocks with equal KEY, RND_A and RND_B derive equal keys and
cryptograms; each side's check of the other's cryptogram matches; and the R-MAC the responder establishes with is the one the
initiator adopts. -/
def Obligations.HandshakeBringsBothSidesToTheSameKeys : Prop :=
  ∀ a b : State, a.key = b.key → a.rndA = b.rndA → a.rndB = b.rndB →
    ∃ a1 a2 b1 b2, exec .derive a = .next a1 ∧ exec .crypt a1 = .next a2 ∧ exec .derive b = .next b1 ∧
      exec .crypt b1 = .next b2 ∧
      a2.sEnc = b2.sEnc ∧ a2.sMac1 = b2.sMac1 ∧ a2.sMac2 = b2.sMac2 ∧ a2.ccrypt = b2.ccrypt ∧ a2.scrypt = b2.scrypt ∧
      ∃ a3 b3 a4, exec .vccrypt { a2 with blk := b2.ccrypt } = .next a3 ∧ a3.matched = true ∧
        exec .vscrypt { b2 with blk := a2.scrypt } = .next b3 ∧ b3.matched = true ∧ b3.established = true ∧
        exec .adoptrmac { a3 with blk := b3.rmac } = .next a4 ∧ a4.rmac = b3.rmac ∧ a4.established = true ∧
        (a.cmac = b.cmac → a4.cmac = b3.cmac)

/-! ### MAC and CBC -/

/-- 45_mac_cbc.md R210: `mac(m, iv)`. A last block (16 bytes, or fewer with their padding) is encrypted under S_MAC2; a first
block that more follows is encrypted under S_MAC1 and chains into the rest. A message of whole blocks is not padded:
MAC_PAD_ALIGNED is false (log 13). -/
def Obligations.MacChainsUnderBothKeys : Prop :=
  ∀ (s : State) (m : Bytes) (iv : Block),
    (m.length < 16 → s.mac m iv = aesEnc s.sMac2 ((Block.ofBytes (pad m)).xor iv)) ∧
    (m.length = 16 → s.mac m iv = aesEnc s.sMac2 ((Block.ofBytes m).xor iv)) ∧
    (16 < m.length → s.mac m iv = s.mac (m.drop 16) (aesEnc s.sMac1 ((Block.ofBytes (m.take 16)).xor iv)))

/-- 45_mac_cbc.md R212, R213: CBC block by block, and that decryption undoes encryption. -/
def Obligations.CbcDecryptionInvertsEncryption : Prop :=
  (∀ k iv : Block, cbcEnc k iv [] = [] ∧ cbcDec k iv [] = []) ∧
  (∀ (k iv b : Block) (d : Bytes), d.length % 16 = 0 →
    cbcEnc k iv (b.toBytes ++ d) = (aesEnc k (b.xor iv)).toBytes ++ cbcEnc k (aesEnc k (b.xor iv)) d ∧
    cbcDec k iv (b.toBytes ++ d) = ((aesDec k b).xor iv).toBytes ++ cbcDec k b d) ∧
  (∀ (k iv : Block) (d : Bytes), d.length % 16 = 0 → cbcDec k iv (cbcEnc k iv d) = d)

/-- 45_mac_cbc.md R216 MACC and MACR, with R211's chaining: a command MAC reads RMAC and writes CMAC, a reply MAC the
reverse. -/
def Obligations.MaccAndMacrChainTheAccumulators : Prop :=
  ∀ s : State, ∀ p ∈ [(Instr.macc, Dir.command), (Instr.macr, Dir.reply)],
    (2048 < s.opoff.toNat + s.oplen.toNat → ∃ t, exec p.1 s = .next t ∧ FailsCleanly .range s t) ∧
    (s.opoff.toNat + s.oplen.toNat ≤ 2048 → s.established = false →
      ∃ t, exec p.1 s = .next t ∧ FailsCleanly .notest s t) ∧
    (s.opoff.toNat + s.oplen.toNat ≤ 2048 → s.established = true → ∃ t, exec p.1 s = .next t ∧
      t.accumulator p.2 = s.mac (s.fbuf s.opoff.toNat s.oplen.toNat) (s.accumulator p.2.other) ∧ Succeeds s t ∧
      Unchanged [accumulatorReg p.2] [] noStore s t)

/-- 45_mac_cbc.md R217 ENCC, ENCR and R218 DECC, DECR: CBC under S_ENC with the complement of the direction's accumulator as IV;
a zero length is a no-op; the errors in order. -/
def Obligations.DataCipherInstructionsTransformDbuf : Prop :=
  ∀ s : State, ∀ p ∈ [(Instr.encc, s.cmac, cbcEnc), (.encr, s.rmac, cbcEnc), (.decc, s.cmac, cbcDec), (.decr, s.rmac, cbcDec)],
    (1024 < s.dlen.toNat → ∃ t, exec p.1 s = .next t ∧ FailsCleanly .range s t) ∧
    (s.dlen.toNat ≤ 1024 → s.established = false → ∃ t, exec p.1 s = .next t ∧ FailsCleanly .notest s t) ∧
    (s.dlen.toNat ≤ 1024 → s.established = true → s.dlen.toNat % 16 ≠ 0 →
      ∃ t, exec p.1 s = .next t ∧ FailsCleanly .notaligned s t) ∧
    (s.dlen.toNat ≤ 1024 → s.established = true → s.dlen.toNat % 16 = 0 → ∃ t, exec p.1 s = .next t ∧
      t.dbuf 0 s.dlen.toNat = p.2.2 s.sEnc (p.2.1.map (0xFF - ·)) (s.dbuf 0 s.dlen.toNat) ∧ Succeeds s t ∧
      Unchanged [] [] (dbufSpan s.dlen.toNat) s t)

/-- 45_mac_cbc.md R219: encrypting and then decrypting in the same direction gives the data back, byte for byte, and DLEN, the
accumulators and the keys are as before. -/
def Obligations.DecryptingWhatWasEncryptedRestoresTheData : Prop :=
  ∀ s : State, s.established = true → s.dlen.toNat ≤ 1024 → s.dlen.toNat % 16 = 0 →
    ∀ p ∈ [(Instr.encc, Instr.decc), (Instr.encr, Instr.decr)],
      ∃ t u, exec p.1 s = .next t ∧ exec p.2 t = .next u ∧ u.errcode = 0x00 ∧
        (∀ a, u.byte a = s.byte a) ∧ u.dlen = s.dlen ∧ t.dlen = s.dlen ∧
        u.cmac = s.cmac ∧ u.rmac = s.rmac ∧ u.sEnc = s.sEnc ∧ u.sMac1 = s.sMac1 ∧ u.sMac2 = s.sMac2 ∧ u.key = s.key

/-- 45_mac_cbc.md R220: two blocks in equal key and MAC state that run the same MAC instructions over equal spans stay in equal
MAC state. -/
def Obligations.EqualMacStatesStayEqual : Prop :=
  ∀ (is : List Instr) (a b : State), (∀ i ∈ is, i = .macc ∨ i = .macr) →
    a.sMac1 = b.sMac1 → a.sMac2 = b.sMac2 → a.cmac = b.cmac → a.rmac = b.rmac → a.established = b.established →
    a.opoff = b.opoff → a.oplen = b.oplen →
    a.fbuf a.opoff.toNat a.oplen.toNat = b.fbuf b.opoff.toNat b.oplen.toNat →
    ∃ t u, execAll is a = .next t ∧ execAll is b = .next u ∧ t.cmac = u.cmac ∧ t.rmac = u.rmac

/-! ### Framer -/

/-- 46_framer.md R240, R242 BUILD: the frame of 30_encoding.md R88, composed field by field; its MAC over everything before it,
chained from the other direction's accumulator, and the direction's accumulator overwritten; its data padded and encrypted under
the accumulator as it was before; the errors in order. -/
def Obligations.BuildComposesTheFrame : Prop :=
  ∀ s : State,
    (1024 < s.dlen.toNat → ∃ t, exec .build s = .next t ∧ FailsCleanly .range s t) ∧
    (s.dlen.toNat ≤ 1024 → s.scs ≠ 0 → (scsValid s.scs = false ∨ (s.scblen ≠ 2 ∧ s.scblen ≠ 3)) →
      ∃ t, exec .build s = .next t ∧ FailsCleanly .badscs s t) ∧
    (s.dlen.toNat ≤ 1024 → scsHasMac s.scs = true → (s.scblen = 2 ∨ s.scblen = 3) → s.established = false →
      ∃ t, exec .build s = .next t ∧ FailsCleanly .notest s t) ∧
    (s.dlen.toNat ≤ 1024 → (s.scs = 0 ∨ (scsValid s.scs = true ∧ (s.scblen = 2 ∨ s.scblen = 3))) →
      (scsHasMac s.scs = true → s.established = true) →
      let d := scsDir s.scs
      let crc := s.ctrl.getLsbD 0
      let ctrl := (s.seq &&& 0x03) ||| (if crc then 0x04 else 0x00) ||| (if s.scs = 0 then 0x00 else 0x08)
      let scb := if s.scs = 0 then [] else wireScb s.scblen s.scs s.scbdata
      let data := if scsEncrypts s.scs = true ∧ s.dlen.toNat > 0 then
        cbcEnc s.sEnc ((s.accumulator d).map (0xFF - ·)) (pad (s.dbuf 0 s.dlen.toNat)) else s.dbuf 0 s.dlen.toNat
      let len := 6 + scb.length + data.length + (if scsHasMac s.scs then 4 else 0) + (if crc then 2 else 1)
      let mac := s.mac (wireBody len s.addr ctrl scb s.code data) (s.accumulator d.other)
      let mac4 := if scsHasMac s.scs then mac.toBytes.take 4 else []
      ∃ t, exec .build s = .next t ∧ t.fbuf 0 len = wireFrame s.addr ctrl scb s.code data mac4 ∧ t.flen.toNat = len ∧
        len ≤ 1055 ∧ (scsHasMac s.scs = true → t.accumulator d = mac) ∧ Succeeds s t ∧
        Unchanged (.flen :: if scsHasMac s.scs then [accumulatorReg d] else []) [] (fbufSpan len) s t)

/-- 46_framer.md R241, R243 BUILDA: BUILD with the type the channel state chooses, which it writes to SCS, with SCBLEN = 2 when
the type is not 0x00; a RANGE error writes neither. That SCS takes the chosen 0x00 while not established is R243's pseudocode
against its corner-case sentence (log 8). -/
def Obligations.BuildaChoosesTheTypeAndBuilds : Prop :=
  ∀ s : State,
    (1024 < s.dlen.toNat → ∃ t, exec .builda s = .next t ∧ FailsCleanly .range s t) ∧
    (s.dlen.toNat ≤ 1024 →
      let scs : Byte := if s.established = false then 0x00
        else if s.ctrl.getLsbD 1 = false then (if s.dlen.toNat = 0 then 0x15 else 0x17)
        else (if s.dlen.toNat = 0 then 0x16 else 0x18)
      let scblen : Byte := if scs = 0 then s.scblen else 2
      ∃ t, exec .builda s = .next t ∧ exec .build { s with scs := scs, scblen := scblen } = .next t ∧
        t.scs = scs ∧ t.scblen = scblen ∧ Succeeds s t)

/-- 46_framer.md R250 PARSE, acceptance: FBUF holds a frame of 30_encoding.md R88 with a right FCS and, for a MAC type in an
established session, a right MAC; then the fields, the data (decrypted under the accumulator as it was before) and the
accumulator are written and MATCH is 1. Bytes past the frame do not matter, nor do the reserved control bits. -/
def Obligations.ParseAcceptsAWellFormedFrame : Prop :=
  ∀ (s : State) (addr ctrl code scblen scs scbdata : Byte) (data mac4 : Bytes),
    let scb := if ctrl.getLsbD 3 then wireScb scblen scs scbdata else []
    let d := scsDir scs
    let mac := s.mac (wireBody (wireLength ctrl scb data mac4) addr ctrl scb code data) (s.accumulator d.other)
    let dec := scsEncrypts scs = true ∧ 0 < data.length
    (ctrl.getLsbD 3 = true → scsValid scs = true ∧ (scblen = 2 ∨ scblen = 3)) →
    (ctrl.getLsbD 3 = false → scs = 0 ∧ scblen = 0) →
    (scblen ≠ 3 → scbdata = 0) →
    data.length ≤ 1024 → (dec → data.length % 16 = 0) →
    (scsHasMac scs = true → s.established = true ∧ mac4.length = 4 ∧ mac4 = mac.toBytes.take 4) →
    (scsHasMac scs = false → mac4 = []) →
    HoldsFrame s (wireFrame addr ctrl scb code data mac4) →
    ∃ t, exec .parse s = .next t ∧ t.addr = addr ∧ t.seq = ctrl &&& 0x03 ∧ t.rxctrl = ctrl ∧ t.code = code ∧
      t.scs = scs ∧ t.scblen = scblen ∧ t.scbdata = scbdata ∧ t.dlen.toNat = data.length ∧
      (dec → t.dbuf 0 data.length = cbcDec s.sEnc ((s.accumulator d).map (0xFF - ·)) data) ∧
      (¬ dec → t.dbuf 0 data.length = data) ∧
      (scsHasMac scs = true → t.accumulator d = mac) ∧ t.matched = true ∧ Succeeds s t ∧
      Unchanged ([.addr, .seq, .rxctrl, .code, .scs, .scblen, .scbdata, .dlen] ++
        if scsHasMac scs then [accumulatorReg d] else []) [.matched] (dbufSpan data.length) s t

/-- 46_framer.md R250 PARSE, MAC mismatch: the same frame with other MAC bytes ends in MACMISMATCH with MATCH 0, and the fields,
the data as received (never decrypted) and the accumulator are written all the same. -/
def Obligations.ParseReportsMacMismatchAndKeepsTheFields : Prop :=
  ∀ (s : State) (addr ctrl code scblen scs scbdata : Byte) (data mac4 : Bytes),
    let scb := wireScb scblen scs scbdata
    let d := scsDir scs
    let mac := s.mac (wireBody (wireLength ctrl scb data mac4) addr ctrl scb code data) (s.accumulator d.other)
    ctrl.getLsbD 3 = true → scsHasMac scs = true → (scblen = 2 ∨ scblen = 3) → (scblen ≠ 3 → scbdata = 0) →
    data.length ≤ 1024 → (scsEncrypts scs = true → data.length % 16 = 0) → s.established = true →
    mac4.length = 4 → mac4 ≠ mac.toBytes.take 4 →
    HoldsFrame s (wireFrame addr ctrl scb code data mac4) →
    ∃ t, exec .parse s = .next t ∧ Fails .macmismatch t ∧ t.matched = false ∧ t.addr = addr ∧ t.seq = ctrl &&& 0x03 ∧
      t.rxctrl = ctrl ∧ t.code = code ∧ t.scs = scs ∧ t.scblen = scblen ∧ t.scbdata = scbdata ∧
      t.dlen.toNat = data.length ∧ t.dbuf 0 data.length = data ∧ t.accumulator d = mac ∧
      Unchanged [.addr, .seq, .rxctrl, .code, .scs, .scblen, .scbdata, .dlen, accumulatorReg d] [.matched]
        (dbufSpan data.length) s t

/-- 60_exceptions.md R283, 46_framer.md R250: PARSE reports the first of its checks that fails, in this order, and writes nothing
else. -/
def Obligations.ParseReportsTheFirstFailingCheck : Prop :=
  ∀ (s : State) (e : ErrCode),
    let n := s.flen.toNat
    let b := s.fbufByte
    let l := (b 2).toNat + 256 * (b 3).toNat
    let crc := (b 4).getLsbD 2
    let c := if crc then 2 else 1
    let hasscb := (b 4).getLsbD 3
    let scblen := if hasscb then b 5 else 0
    let scs := if hasscb then b 6 else 0
    let m := if scsHasMac scs then 4 else 0
    let dl := l - (6 + scblen.toNat + m + c)
    firstError
      [(n > 2048, .range), (n < 1, .length), (b 0 ≠ 0x53, .badsom), (n < 5, .length), (n < l, .length),
       (l < 6 + c + (if hasscb then 2 else 0), .length),
       (s.fbuf (l - c) c ≠ wireFcs crc (s.fbuf 0 (l - c)), .checksum),
       (hasscb ∧ (scsValid scs = false ∨ (scblen ≠ 2 ∧ scblen ≠ 3)), .badscs),
       (6 + scblen.toNat + c > l, .length), (6 + scblen.toNat + m + c > l, .length),
       (scsHasMac scs ∧ s.established = false, .notest), (dl > 1024, .range),
       (scsEncrypts scs ∧ dl % 16 ≠ 0, .notaligned)] = some e →
    ∃ t, exec .parse s = .next t ∧ FailsUnmatched e s t

/-- 46_framer.md R251: PARSE of the source's secure Poll raises LENGTH, established or not. -/
def Obligations.ParseOfTheSourcesSecurePollRaisesLength : Prop :=
  ∀ s : State, s.flen = 10 → s.fbuf 0 10 = [0x53, 0x00, 0x0A, 0x00, 0x0C, 0x02, 0x15, 0x60, 0x58, 0xD5] →
    ∃ t, exec .parse s = .next t ∧ FailsUnmatched .length s t

/-- 46_framer.md R252, the round trip: what a block builds, with BUILD or BUILDA, another block in equal secure state parses with
MATCH 1, giving back the address, sequence, code, type and data. Encrypted data comes back padded, and UNPAD gives its length. A
sender's DLEN of 1024 in an encrypted frame is left out: its 1040 data bytes do not fit the receiver's DBUF, and R250 answers
RANGE (log 20, DEDUCED). -/
def Obligations.ParsingABuiltFrameGivesItBack : Prop :=
  ∀ i ∈ [Instr.build, Instr.builda], ∀ a b a' : State, exec i a = .next a' → a'.errcode = 0x00 →
    (scsEncrypts a'.scs = true → a.dlen.toNat < 1024) →
    b.sEnc = a.sEnc → b.sMac1 = a.sMac1 → b.sMac2 = a.sMac2 → b.cmac = a.cmac → b.rmac = a.rmac →
    b.established = a.established → b.flen = a'.flen →
    b.fbuf 0 a'.flen.toNat = a'.fbuf 0 a'.flen.toNat →
    ∃ b', exec .parse b = .next b' ∧ b'.errcode = 0x00 ∧ b'.matched = true ∧
      b'.addr = a.addr ∧ b'.seq = a.seq &&& 0x03 ∧ b'.code = a.code ∧ b'.scs = a'.scs ∧
      (a'.scs ≠ 0 → b'.scblen = a'.scblen ∧ b'.scbdata = if a'.scblen = 3 then a.scbdata else 0) ∧
      (a'.scs = 0 → b'.scblen = 0 ∧ b'.scbdata = 0) ∧
      b'.rxctrl &&& 0xF0 = 0 ∧ b'.cmac = a'.cmac ∧ b'.rmac = a'.rmac ∧
      (scsEncrypts a'.scs = true ∧ 0 < a.dlen.toNat →
        b'.dbuf 0 b'.dlen.toNat = pad (a.dbuf 0 a.dlen.toNat) ∧
        ∃ u, exec .unpad b' = .next u ∧ u.errcode = 0x00 ∧ u.dlen = a.dlen) ∧
      (¬ (scsEncrypts a'.scs = true ∧ 0 < a.dlen.toNat) →
        b'.dlen = a.dlen ∧ b'.dbuf 0 b'.dlen.toNat = a.dbuf 0 a.dlen.toNat)

/-- From 46_framer.md R253, following R250's order of checks against R253's sentence where the two differ: the model's reading (log
20, DEDUCED). FBUF holds a frame of the minimum length or more with a right FCS, as every built frame is, whatever PARSE would say
of the rest of it. With one byte changed, outside the length field and with the CRC flag kept, PARSE answers BADSOM for byte 0 and
CHECKSUM for every other byte, the control byte included while it keeps its security block flag. R253's sentence says CHECKSUM for a
changed security block flag too, but R250 checks the minimum length, which that flag moves, before the FCS: so there the answer is
CHECKSUM or LENGTH. -/
def Obligations.ParseAcceptsNoFrameWithOneByteChanged : Prop :=
  ∀ (s : State) (k : Nat) (v : Byte),
    let b := s.fbufByte
    let l := (b 2).toNat + 256 * (b 3).toNat
    let crc := (b 4).getLsbD 2
    let c := if crc then 2 else 1
    s.flen.toNat ≤ 2048 → b 0 = 0x53 → l ≤ s.flen.toNat → 6 + c + (if (b 4).getLsbD 3 then 2 else 0) ≤ l →
    s.fbuf (l - c) c = wireFcs crc (s.fbuf 0 (l - c)) →
    k < l → v ≠ b k → k ≠ 2 → k ≠ 3 → (k = 4 → v.getLsbD 2 = crc) →
    let s' := s.writeFbuf k [v]
    ∃ u, exec .parse s' = .next u ∧
      (k = 0 → FailsUnmatched .badsom s' u) ∧
      (k ≠ 0 → (k = 4 → v.getLsbD 3 = (b 4).getLsbD 3) → FailsUnmatched .checksum s' u) ∧
      (k = 4 → FailsUnmatched .checksum s' u ∨ FailsUnmatched .length s' u)

/-! ### The host window -/

/-- 10_state.md R22, R39, 20_memory.md R60: the map of the window, row by row: at which offsets each register lies, and its access
class; the offsets of no row are reserved below 0x400, and the buffers are the offsets 0x400-0xFFF. -/
def Obligations.ReservedOffsetsAreThoseOfTheMap : Prop :=
  (∀ p ∈ [((0x000 : Nat), (1 : Nat), Reg.opc, Access.issue), (0x001, 1, .ctrl, .rw), (0x002, 1, .status, .w1c),
      (0x003, 1, .errcode, .ro), (0x004, 1, .addr, .rw), (0x005, 1, .seq, .rw), (0x006, 1, .code, .rw), (0x007, 1, .scs, .rw),
      (0x008, 1, .scblen, .rw), (0x009, 1, .scbdata, .rw), (0x00A, 1, .rxctrl, .ro), (0x00C, 2, .dlen, .rw),
      (0x00E, 2, .flen, .rw), (0x010, 2, .opoff, .rw), (0x012, 2, .oplen, .rw), (0x014, 2, .fcs, .ro),
      (0x040, 16, .key, .wo), (0x050, 16, .sEnc, .wo), (0x060, 16, .sMac1, .wo), (0x070, 16, .sMac2, .wo),
      (0x080, 16, .cmac, .rw), (0x090, 16, .rmac, .rw), (0x0A0, 8, .rndA, .rw), (0x0A8, 8, .rndB, .rw),
      (0x0B0, 16, .ccrypt, .ro), (0x0C0, 16, .scrypt, .ro), (0x0D0, 16, .blk, .rw)],
    ∀ off r i a, (locate off = .reg r i a ∧ r = p.2.2.1) ↔
      (off = p.1 + i ∧ i < p.2.1 ∧ r = p.2.2.1 ∧ a = p.2.2.2)) ∧
  (∀ off, off < 0x1000 → (locate off = .buffer ↔ 0x400 ≤ off)) ∧
  (∀ off, off < 0x1000 →
    (locate off = .reserved ↔ off = 0x00B ∨ (0x016 ≤ off ∧ off ≤ 0x03F) ∨ (0x0E0 ≤ off ∧ off ≤ 0x3FF)))

/-- 10_state.md R22, R25, R39: what an idle host write does, by the access class of the location. Every register byte that does not
lie at the offset, the write-only ones included, every other offset and all hidden state are as before. A write to STATUS clears
DONE, ERR and OVR where it holds 1 and changes nothing else. -/
def Obligations.HostWriteThenReadFollowsTheAccessClass : Prop :=
  (∀ (s : State) (off : Nat) (v : Byte), s.busy = false → off < 0x1000 → off ≠ 0x000 → off ≠ 0x002 →
    (∀ r i, locate off = .reg r i .rw →
      (s.hostWrite off v).hostRead off = if r = .ctrl then v &&& 0x07 else if r = .seq then v &&& 0x03 else v) ∧
    (∀ r i, locate off = .reg r i .wo →
      (s.hostWrite off v).hostRead off = 0x00 ∧ (s.hostWrite off v).regByte r i = v) ∧
    (locate off = .buffer → (s.hostWrite off v).hostRead off = v) ∧
    (∀ r i, locate off = .reg r i .ro → s.hostWrite off v = s) ∧
    (locate off = .reserved → s.hostWrite off v = s ∧ s.hostRead off = 0x00) ∧
    (∀ off', off' ≠ off → (s.hostWrite off v).hostRead off' = s.hostRead off') ∧
    (∀ r i, (∀ a, locate off ≠ .reg r i a) → (s.hostWrite off v).regByte r i = s.regByte r i) ∧
    HiddenKept s (s.hostWrite off v)) ∧
  (∀ (s : State) (v : Byte), s.busy = false → ∃ t, t = s.hostWrite 0x002 v ∧
    t.done = (s.done && !v.getLsbD 1) ∧ t.err = (s.err && !v.getLsbD 2) ∧ t.ovr = (s.ovr && !v.getLsbD 3) ∧
    t.busy = false ∧ t.established = s.established ∧ t.matched = s.matched ∧ t.defkey = s.defkey ∧
    t.errcode = s.errcode ∧ Unchanged [] [.ovr] noStore s t)

/-- 20_memory.md R71, 10_state.md R25: while the instruction in flight waits, a host write to any offset but STATUS changes
nothing but OVR, which becomes 1; a write to STATUS clears DONE, ERR and OVR where it holds 1 and changes nothing else. That a
write to a read-only or reserved offset sets OVR too is the model's reading (log 7). -/
def Obligations.WritesWhileBusyAreDropped : Prop :=
  ∀ (s : State) (off : Nat) (v : Byte) (rest : List HostAccess), s.busy = true → s.wait ≠ 0 → off < 0x1000 →
    s.host = .wr off v :: rest →
    ∃ t, step s = .next t ∧ t.host = rest ∧ t.wait = s.wait - 1 ∧ t.busy = true ∧ t.errcode = s.errcode ∧
      (off ≠ 0x002 → t.ovr = true ∧ t.done = s.done ∧ t.err = s.err ∧
        Unchanged [] [.ovr] noStore s { t with host := s.host, wait := s.wait }) ∧
      (off = 0x002 → t.done = (s.done && !v.getLsbD 1) ∧ t.err = (s.err && !v.getLsbD 2) ∧
        t.ovr = (s.ovr && !v.getLsbD 3) ∧ Unchanged [] [.ovr] noStore s { t with host := s.host, wait := s.wait })

/-- 20_memory.md R65, R70, 10_state.md R22, R39: what a host read returns, and that it changes nothing of the block. While BUSY it
returns the current STATUS or the latched opcode, and for any other offset a free byte (logs 6, 22); while idle a register's byte,
0x00 for a write-only or reserved one, or the buffer's byte. Idle or waiting, the read only adds its answer to the model's list of
answers (log 16), and a free byte used advances their counter (log 6). -/
def Obligations.HostReadsHaveNoSideEffect : Prop :=
  ∀ (s : State) (off : Nat), off < 0x1000 →
    (s.busy = true → s.hostRead 0x000 = s.opc ∧ s.hostRead 0x002 = s.status &&& 0x7F) ∧
    (s.busy = true → off ≠ 0x000 → off ≠ 0x002 → s.hostRead off = Config.busyByte s.life s.busyReads) ∧
    (s.busy = false → 0x400 ≤ off → s.hostRead off = s.byte off) ∧
    (∀ r i a, s.busy = false → locate off = .reg r i a → s.hostRead off = if a = .wo then 0x00 else s.regByte r i) ∧
    (s.busy = false → locate off = .reserved → s.hostRead off = 0x00) ∧
    (∀ rest, s.busy = false → s.host = .rd off :: rest →
      ∃ t, step s = .next t ∧ t = { s with host := rest, answers := (off, s.hostRead off) :: s.answers }) ∧
    (∀ rest, s.busy = true → s.wait ≠ 0 → s.host = .rd off :: rest →
      ∃ t, step s = .next t ∧ t = { s with
        host := rest, wait := s.wait - 1, answers := (off, s.hostRead off) :: s.answers,
        busyReads := if off = 0x000 ∨ off = 0x002 then s.busyReads else s.busyReads + 1 })

/-- 20_memory.md R62: a 16-bit number written low byte first is the register's value, and is read back low byte first. -/
def Obligations.SixteenBitRegistersAreLittleEndian : Prop :=
  ∀ (s : State) (v : Half), s.busy = false →
    ((s.hostWrite 0x00C (v.setWidth 8)).hostWrite 0x00D ((v >>> 8).setWidth 8)).dlen = v ∧
    ((s.hostWrite 0x00E (v.setWidth 8)).hostWrite 0x00F ((v >>> 8).setWidth 8)).flen = v ∧
    ((s.hostWrite 0x010 (v.setWidth 8)).hostWrite 0x011 ((v >>> 8).setWidth 8)).opoff = v ∧
    ((s.hostWrite 0x012 (v.setWidth 8)).hostWrite 0x013 ((v >>> 8).setWidth 8)).oplen = v ∧
    s.hostRead 0x014 = s.fcs.setWidth 8 ∧ s.hostRead 0x015 = (s.fcs >>> 8).setWidth 8

/-- 10_state.md R56: no host read can return KEY, S_ENC, S_MAC1 or S_MAC2: two states that differ only in them answer every read
alike, and after any turn of the host they still differ only in them, with the same answers. -/
def Obligations.HostAccessesNeverRevealTheKeys : Prop :=
  ∀ s t : State, SameButKeys s t →
    (∀ off, t.hostRead off = s.hostRead off) ∧
    (∀ s', hostStep s = .next s' → ∃ t', hostStep t = .next t' ∧ SameButKeys s' t' ∧ t'.answers = s'.answers)

/-! ### The machine as a whole -/

/-- 70_reset_and_hazards.md R310: the invariant holds after every power-on reset. -/
def Obligations.ResetStateMeetsTheInvariant : Prop := State.reset.Inv ∧ ∀ n, (State.powerOn n).Inv

/-- Every step keeps the invariant: the buffers in canonical form, the reserved bits 0 (10_state.md R39), ERRCODE a code of
30_encoding.md R97, BUSY and DONE never both 1 (40_control.md R110, R111). -/
def Obligations.EveryStepKeepsTheInvariant : Prop :=
  ∀ s t : State, s.Inv → step s = .next t → t.Inv

/-- 60_exceptions.md R284, 20_memory.md R61, R67: a step never refuses, and it stops with a fault only when the host's next access
is outside the window. The fault is the model's choice for an access that does not exist (log 15). -/
def Obligations.StepsStopOnlyAtAccessesOutsideTheWindow : Prop :=
  ∀ s : State, (∀ r, step s ≠ .refused r) ∧
    (∀ r, step s = .fault r → ∃ a rest, s.host = a :: rest ∧ a.wellFormed = false) ∧
    ((∀ a ∈ s.host, a.wellFormed = true) → Safe (step s))

/-- 10_state.md R22 to R50, 20_memory.md R62, R63: the bytes of each register, by the part of the state it is: a one-byte register is
its byte (without the reserved bits of CTRL, STATUS and SEQ), a number is little-endian, and a string has byte 0 first. -/
def Obligations.RegisterBytesAreThoseOfTheState : Prop :=
  ∀ s : State,
    (∀ p ∈ [(Reg.opc, s.opc), (.ctrl, s.ctrl &&& 0x07), (.status, s.status &&& 0x7F), (.errcode, s.errcode), (.addr, s.addr),
        (.seq, s.seq &&& 0x03), (.code, s.code), (.scs, s.scs), (.scblen, s.scblen), (.scbdata, s.scbdata),
        (.rxctrl, s.rxctrl)], s.regByte p.1 0 = p.2) ∧
    (∀ p ∈ [(Reg.dlen, s.dlen), (.flen, s.flen), (.opoff, s.opoff), (.oplen, s.oplen), (.fcs, s.fcs)],
      (s.regByte p.1 0).toNat = p.2.toNat % 256 ∧ (s.regByte p.1 1).toNat = p.2.toNat / 256) ∧
    (∀ p ∈ [(Reg.key, s.key), (.sEnc, s.sEnc), (.sMac1, s.sMac1), (.sMac2, s.sMac2), (.cmac, s.cmac), (.rmac, s.rmac),
        (.ccrypt, s.ccrypt), (.scrypt, s.scrypt), (.blk, s.blk)],
      (List.range 16).map (s.regByte p.1) = p.2.toBytes) ∧
    (∀ p ∈ [(Reg.rndA, s.rndA), (.rndB, s.rndB)], (List.range 8).map (s.regByte p.1) = p.2.toBytes)
end

