-- ==== Sys2Proof/Laws/Bytes.lean ====
section
/-! SUPPORT. Byte strings of fixed length: lengths, the passage to strings and back, XOR, and the lengths of CBC and padding. -/

namespace Sys2Proof

@[simp] theorem Quad.length_toBytes (q : Quad) : q.toBytes.length = 4 := rfl
@[simp] theorem Rnd.length_toBytes (r : Rnd) : r.toBytes.length = 8 := rfl
@[simp] theorem Block.length_toBytes (b : Block) : b.toBytes.length = 16 := rfl

/-- A block read back from its byte string, whatever follows. -/
@[simp] theorem Block.ofBytes_toBytes_append (b : Block) (d : Bytes) : Block.ofBytes (b.toBytes ++ d) = b := rfl

@[simp] theorem Block.ofBytes_toBytes (b : Block) : Block.ofBytes b.toBytes = b := rfl

@[simp] theorem Block.drop_toBytes_append (b : Block) (d : Bytes) : (b.toBytes ++ d).drop 16 = d := rfl

/-- A string of sixteen bytes or more is its first block and the rest. -/
theorem Block.toBytes_ofBytes_append_drop (d : Bytes) (h : 16 ≤ d.length) :
    (Block.ofBytes d).toBytes ++ d.drop 16 = d := by
  match d, h with
  | a0 :: a1 :: a2 :: a3 :: a4 :: a5 :: a6 :: a7 :: a8 :: a9 :: a10 :: a11 :: a12 :: a13 :: a14 :: a15 :: rest, _ => rfl

@[simp] theorem Quad.xor_xor_cancel_right (p q : Quad) : (p.xor q).xor q = p := by
  simp [Quad.xor]

theorem Quad.xor_comm (p q : Quad) : p.xor q = q.xor p := by simp [Quad.xor, BitVec.xor_comm]

/-- XOR with the same block twice. -/
@[simp] theorem Block.xor_xor_cancel_right (a b : Block) : (a.xor b).xor b = a := by simp [Block.xor]

theorem Block.xor_comm (a b : Block) : a.xor b = b.xor a := by simp [Block.xor, Quad.xor_comm]

theorem Byte.compl_eq_sub (x : Byte) : ~~~x = 0xFF - x := by revert x; decide

/-- 00_scope.md R9: the complement of a byte x is 0xFF - x. -/
theorem Block.compl_eq_map (b : Block) : b.compl = b.map (0xFF - ·) := by
  simp only [Block.compl, Block.map, Quad.map, Byte.compl_eq_sub]

end Sys2Proof

namespace Sys2Proof.Machine

@[simp] theorem length_blocksOf (k : Nat) (d : Bytes) : (blocksOf k d).length = k := by
  induction k generalizing d with
  | zero => rfl
  | succ k ih => simp [blocksOf, ih]

@[simp] theorem length_bytesOf (bs : List Block) : (bytesOf bs).length = 16 * bs.length := by
  induction bs with
  | nil => rfl
  | cons b bs ih => simp [bytesOf, ih]; omega

@[simp] theorem blocksOf_bytesOf (bs : List Block) : blocksOf bs.length (bytesOf bs) = bs := by
  induction bs with
  | nil => rfl
  | cons b bs ih =>
    simp only [bytesOf, List.length_cons, blocksOf, Block.ofBytes_toBytes_append, Block.drop_toBytes_append, ih]

/-- A string of k whole blocks is the string of its blocks. -/
theorem bytesOf_blocksOf (k : Nat) (d : Bytes) (h : d.length = 16 * k) : bytesOf (blocksOf k d) = d := by
  induction k generalizing d with
  | zero => simp_all [blocksOf, bytesOf, List.length_eq_zero_iff]
  | succ k ih =>
    simp only [blocksOf, bytesOf]
    rw [ih _ (by rw [List.length_drop]; omega), Block.toBytes_ofBytes_append_drop d (by omega)]

@[simp] theorem length_cbcEncBlocks (k c : Block) (ps : List Block) : (cbcEncBlocks k c ps).length = ps.length := by
  induction ps generalizing c with
  | nil => rfl
  | cons p ps ih => simp [cbcEncBlocks, ih]

@[simp] theorem length_cbcDecBlocks (k c : Block) (bs : List Block) : (cbcDecBlocks k c bs).length = bs.length := by
  induction bs generalizing c with
  | nil => rfl
  | cons b bs ih => simp [cbcDecBlocks, ih]

/-- 45_mac_cbc.md R212: ciphertext is as long as the whole blocks of its input. -/
@[simp] theorem length_cbcEnc (k iv : Block) (d : Bytes) : (cbcEnc k iv d).length = 16 * (d.length / 16) := by simp [cbcEnc]

/-- 45_mac_cbc.md R213. -/
@[simp] theorem length_cbcDec (k iv : Block) (d : Bytes) : (cbcDec k iv d).length = 16 * (d.length / 16) := by simp [cbcDec]

@[simp] theorem length_padTail (n : Nat) : (padTail n).length = 16 - n % 16 := by simp [padTail]; omega

@[simp] theorem length_pad (d : Bytes) : (pad d).length = paddedLen d.length := by simp [pad, paddedLen]; omega

theorem paddedLen_mod (n : Nat) : paddedLen n % 16 = 0 := by simp [paddedLen]

/-- 20_memory.md R62: the number with the given low and high bytes. -/
theorem toNat_mkHalf (lo hi : Byte) : (mkHalf lo hi).toNat = lo.toNat + 256 * hi.toNat := by
  simp only [mkHalf, BitVec.toNat_append]
  rw [← Nat.shiftLeft_add_eq_or_of_lt (by simpa using lo.isLt)]
  simp [Nat.shiftLeft_eq]; omega

theorem toNat_loByte (h : Half) : (loByte h).toNat = h.toNat % 256 := by simp [loByte]

theorem toNat_hiByte (h : Half) : (hiByte h).toNat = h.toNat / 256 := by
  have := h.isLt
  simp only [hiByte, BitVec.toNat_setWidth, BitVec.toNat_ushiftRight, Nat.shiftRight_eq_div_pow]
  omega

@[simp] theorem mkHalf_loByte_hiByte (h : Half) : mkHalf (loByte h) (hiByte h) = h := by
  apply BitVec.eq_of_toNat_eq
  rw [toNat_mkHalf, toNat_loByte, toNat_hiByte]
  omega

@[simp] theorem loByte_mkHalf (lo hi : Byte) : loByte (mkHalf lo hi) = lo := by
  apply BitVec.eq_of_toNat_eq
  rw [toNat_loByte, toNat_mkHalf]
  have := lo.isLt
  omega

@[simp] theorem hiByte_mkHalf (lo hi : Byte) : hiByte (mkHalf lo hi) = hi := by
  apply BitVec.eq_of_toNat_eq
  rw [toNat_hiByte, toNat_mkHalf]
  have := lo.isLt
  omega

end Sys2Proof.Machine
end

