-- ==== Sys2Proof/Laws/Checksum.lean ====
section
/-! SUPPORT. The CRC register and the byte sum over strings put together, and how long frames are. -/

namespace Sys2Proof.Machine

theorem crcFrom_append (c : Half) (a b : Bytes) : crcFrom c (a ++ b) = crcFrom (crcFrom c a) b := by
  induction a generalizing c with
  | nil => rfl
  | cons x xs ih => exact ih (crcByte c x)

theorem byteSum_append (a b : Bytes) : byteSum (a ++ b) = byteSum a + byteSum b := by
  induction a with
  | nil => simp [byteSum]
  | cons x xs ih => simp [byteSum, ih]; omega

/-- The model's sum is the sum of the bytes' values. -/
theorem byteSum_eq_sum (b : Bytes) : byteSum b = (b.map BitVec.toNat).sum := by
  induction b with
  | nil => rfl
  | cons x xs ih => simp [byteSum, ih]

@[simp] theorem length_appendFcs (crc : Bool) (f : Bytes) : (appendFcs crc f).length = f.length + fcsLen crc := by
  cases crc <;> simp [appendFcs, fcsLen]

end Sys2Proof.Machine
end

