-- ==== Sys2Proof/Laws/Cipher.lean ====
section
/-! SUPPORT. The steps of AES-128 that undo each other: ShiftRows, SubBytes and MixColumns with their inverses. -/

namespace Sys2Proof.Machine

@[simp] theorem invShiftRows_shiftRows (s : Block) : invShiftRows (shiftRows s) = s := rfl

@[simp] theorem shiftRows_invShiftRows (s : Block) : shiftRows (invShiftRows s) = s := rfl

theorem Byte.xor_left_comm (a b c : Byte) : a ^^^ (b ^^^ c) = b ^^^ (a ^^^ c) := by
  rw [← BitVec.xor_assoc, BitVec.xor_comm a b, BitVec.xor_assoc]

/-! ### Multiplication in GF(2^8) is additive -/

theorem xtime_xor (a b : Byte) : xtime (a ^^^ b) = xtime a ^^^ xtime b := by
  unfold xtime
  rw [BitVec.shiftLeft_xor_distrib, BitVec.getLsbD_xor]
  cases a.getLsbD 7 <;> cases b.getLsbD 7 <;> simp [BitVec.xor_assoc, BitVec.xor_comm, Byte.xor_left_comm]

theorem xtimes_xor (a b : Byte) (j : Nat) : xtimes (a ^^^ b) j = xtimes a j ^^^ xtimes b j := by
  induction j with
  | zero => rfl
  | succ j ih => simp only [xtimes, ih, xtime_xor]

theorem gmulBelow_xor (a b c : Byte) (n : Nat) :
    gmulBelow (a ^^^ b) c n = gmulBelow a c n ^^^ gmulBelow b c n := by
  induction n with
  | zero => simp [gmulBelow]
  | succ n ih =>
    simp only [gmulBelow, ih, xtimes_xor]
    cases c.getLsbD n <;> simp [BitVec.xor_assoc, BitVec.xor_comm, Byte.xor_left_comm]

/-- 43_aes.md R152: the product distributes over XOR. -/
theorem gmul_xor (a b c : Byte) : gmul (a ^^^ b) c = gmul a c ^^^ gmul b c := gmulBelow_xor a b c 8

end Sys2Proof.Machine
end

