-- ==== Sys2Proof/Laws/State.lean ====
section
/-! SUPPORT. What each update of State does to each field, one lemma a field, so that no later proof unfolds a record update. -/

namespace Sys2Proof.Machine

/-! ### `setStatusBit` -/

section
variable (s : State) (n : Nat) (v : Bool)
@[simp] theorem State.setStatusBit_opc : (s.setStatusBit n v).opc = s.opc := rfl
@[simp] theorem State.setStatusBit_ctrl : (s.setStatusBit n v).ctrl = s.ctrl := rfl
@[simp] theorem State.setStatusBit_status : (s.setStatusBit n v).status = setBit s.status n v := rfl
@[simp] theorem State.setStatusBit_errcode : (s.setStatusBit n v).errcode = s.errcode := rfl
@[simp] theorem State.setStatusBit_addr : (s.setStatusBit n v).addr = s.addr := rfl
@[simp] theorem State.setStatusBit_seq : (s.setStatusBit n v).seq = s.seq := rfl
@[simp] theorem State.setStatusBit_code : (s.setStatusBit n v).code = s.code := rfl
@[simp] theorem State.setStatusBit_scs : (s.setStatusBit n v).scs = s.scs := rfl
@[simp] theorem State.setStatusBit_scblen : (s.setStatusBit n v).scblen = s.scblen := rfl
@[simp] theorem State.setStatusBit_scbdata : (s.setStatusBit n v).scbdata = s.scbdata := rfl
@[simp] theorem State.setStatusBit_rxctrl : (s.setStatusBit n v).rxctrl = s.rxctrl := rfl
@[simp] theorem State.setStatusBit_dlen : (s.setStatusBit n v).dlen = s.dlen := rfl
@[simp] theorem State.setStatusBit_flen : (s.setStatusBit n v).flen = s.flen := rfl
@[simp] theorem State.setStatusBit_opoff : (s.setStatusBit n v).opoff = s.opoff := rfl
@[simp] theorem State.setStatusBit_oplen : (s.setStatusBit n v).oplen = s.oplen := rfl
@[simp] theorem State.setStatusBit_fcs : (s.setStatusBit n v).fcs = s.fcs := rfl
@[simp] theorem State.setStatusBit_key : (s.setStatusBit n v).key = s.key := rfl
@[simp] theorem State.setStatusBit_sEnc : (s.setStatusBit n v).sEnc = s.sEnc := rfl
@[simp] theorem State.setStatusBit_sMac1 : (s.setStatusBit n v).sMac1 = s.sMac1 := rfl
@[simp] theorem State.setStatusBit_sMac2 : (s.setStatusBit n v).sMac2 = s.sMac2 := rfl
@[simp] theorem State.setStatusBit_cmac : (s.setStatusBit n v).cmac = s.cmac := rfl
@[simp] theorem State.setStatusBit_rmac : (s.setStatusBit n v).rmac = s.rmac := rfl
@[simp] theorem State.setStatusBit_rndA : (s.setStatusBit n v).rndA = s.rndA := rfl
@[simp] theorem State.setStatusBit_rndB : (s.setStatusBit n v).rndB = s.rndB := rfl
@[simp] theorem State.setStatusBit_ccrypt : (s.setStatusBit n v).ccrypt = s.ccrypt := rfl
@[simp] theorem State.setStatusBit_scrypt : (s.setStatusBit n v).scrypt = s.scrypt := rfl
@[simp] theorem State.setStatusBit_blk : (s.setStatusBit n v).blk = s.blk := rfl
@[simp] theorem State.setStatusBit_mem : (s.setStatusBit n v).mem = s.mem := rfl
@[simp] theorem State.setStatusBit_wait : (s.setStatusBit n v).wait = s.wait := rfl
@[simp] theorem State.setStatusBit_rng : (s.setStatusBit n v).rng = s.rng := rfl
@[simp] theorem State.setStatusBit_life : (s.setStatusBit n v).life = s.life := rfl
@[simp] theorem State.setStatusBit_busyReads : (s.setStatusBit n v).busyReads = s.busyReads := rfl
@[simp] theorem State.setStatusBit_latencies : (s.setStatusBit n v).latencies = s.latencies := rfl
@[simp] theorem State.setStatusBit_host : (s.setStatusBit n v).host = s.host := rfl
@[simp] theorem State.setStatusBit_answers : (s.setStatusBit n v).answers = s.answers := rfl
@[simp] theorem State.setStatusBit_byte (a : Nat) : (s.setStatusBit n v).byte a = s.byte a := rfl
@[simp] theorem State.setStatusBit_dbufByte (a : Nat) : (s.setStatusBit n v).dbufByte a = s.dbufByte a := rfl
@[simp] theorem State.setStatusBit_fbufByte (a : Nat) : (s.setStatusBit n v).fbufByte a = s.fbufByte a := rfl
@[simp] theorem State.setStatusBit_dbuf (a k : Nat) : (s.setStatusBit n v).dbuf a k = s.dbuf a k := rfl
@[simp] theorem State.setStatusBit_fbuf (a k : Nat) : (s.setStatusBit n v).fbuf a k = s.fbuf a k := rfl
end

section
variable (s : State) (v : Bool)
@[simp] theorem State.setBusy_eq : s.setBusy v = s.setStatusBit 0 v := rfl
@[simp] theorem State.setDone_eq : s.setDone v = s.setStatusBit 1 v := rfl
@[simp] theorem State.setErr_eq : s.setErr v = s.setStatusBit 2 v := rfl
@[simp] theorem State.setOvr_eq : s.setOvr v = s.setStatusBit 3 v := rfl
@[simp] theorem State.setEstablished_eq : s.setEstablished v = s.setStatusBit 4 v := rfl
@[simp] theorem State.setMatched_eq : s.setMatched v = s.setStatusBit 5 v := rfl
@[simp] theorem State.setDefkey_eq : s.setDefkey v = s.setStatusBit 6 v := rfl
end

/-! ### `complete` -/

section
variable (s : State) (c : Byte)
@[simp] theorem State.complete_opc : (s.complete c).opc = s.opc := rfl
@[simp] theorem State.complete_ctrl : (s.complete c).ctrl = s.ctrl := rfl
@[simp] theorem State.complete_status : (s.complete c).status = setBit (setBit (setBit s.status 2 (s.err || c != 0)) 0 false) 1 true := rfl
@[simp] theorem State.complete_errcode : (s.complete c).errcode = c := rfl
@[simp] theorem State.complete_addr : (s.complete c).addr = s.addr := rfl
@[simp] theorem State.complete_seq : (s.complete c).seq = s.seq := rfl
@[simp] theorem State.complete_code : (s.complete c).code = s.code := rfl
@[simp] theorem State.complete_scs : (s.complete c).scs = s.scs := rfl
@[simp] theorem State.complete_scblen : (s.complete c).scblen = s.scblen := rfl
@[simp] theorem State.complete_scbdata : (s.complete c).scbdata = s.scbdata := rfl
@[simp] theorem State.complete_rxctrl : (s.complete c).rxctrl = s.rxctrl := rfl
@[simp] theorem State.complete_dlen : (s.complete c).dlen = s.dlen := rfl
@[simp] theorem State.complete_flen : (s.complete c).flen = s.flen := rfl
@[simp] theorem State.complete_opoff : (s.complete c).opoff = s.opoff := rfl
@[simp] theorem State.complete_oplen : (s.complete c).oplen = s.oplen := rfl
@[simp] theorem State.complete_fcs : (s.complete c).fcs = s.fcs := rfl
@[simp] theorem State.complete_key : (s.complete c).key = s.key := rfl
@[simp] theorem State.complete_sEnc : (s.complete c).sEnc = s.sEnc := rfl
@[simp] theorem State.complete_sMac1 : (s.complete c).sMac1 = s.sMac1 := rfl
@[simp] theorem State.complete_sMac2 : (s.complete c).sMac2 = s.sMac2 := rfl
@[simp] theorem State.complete_cmac : (s.complete c).cmac = s.cmac := rfl
@[simp] theorem State.complete_rmac : (s.complete c).rmac = s.rmac := rfl
@[simp] theorem State.complete_rndA : (s.complete c).rndA = s.rndA := rfl
@[simp] theorem State.complete_rndB : (s.complete c).rndB = s.rndB := rfl
@[simp] theorem State.complete_ccrypt : (s.complete c).ccrypt = s.ccrypt := rfl
@[simp] theorem State.complete_scrypt : (s.complete c).scrypt = s.scrypt := rfl
@[simp] theorem State.complete_blk : (s.complete c).blk = s.blk := rfl
@[simp] theorem State.complete_mem : (s.complete c).mem = s.mem := rfl
@[simp] theorem State.complete_wait : (s.complete c).wait = s.wait := rfl
@[simp] theorem State.complete_rng : (s.complete c).rng = s.rng := rfl
@[simp] theorem State.complete_life : (s.complete c).life = s.life := rfl
@[simp] theorem State.complete_busyReads : (s.complete c).busyReads = s.busyReads := rfl
@[simp] theorem State.complete_latencies : (s.complete c).latencies = s.latencies := rfl
@[simp] theorem State.complete_host : (s.complete c).host = s.host := rfl
@[simp] theorem State.complete_answers : (s.complete c).answers = s.answers := rfl
@[simp] theorem State.complete_byte (a : Nat) : (s.complete c).byte a = s.byte a := rfl
@[simp] theorem State.complete_dbufByte (a : Nat) : (s.complete c).dbufByte a = s.dbufByte a := rfl
@[simp] theorem State.complete_fbufByte (a : Nat) : (s.complete c).fbufByte a = s.fbufByte a := rfl
@[simp] theorem State.complete_dbuf (a k : Nat) : (s.complete c).dbuf a k = s.dbuf a k := rfl
@[simp] theorem State.complete_fbuf (a k : Nat) : (s.complete c).fbuf a k = s.fbuf a k := rfl
end

/-! ### `issue` -/

section
variable (s : State) (v : Byte)
@[simp] theorem State.issue_opc : (s.issue v).opc = v := rfl
@[simp] theorem State.issue_ctrl : (s.issue v).ctrl = s.ctrl := rfl
@[simp] theorem State.issue_status : (s.issue v).status = setBit (setBit s.status 0 true) 1 false := rfl
@[simp] theorem State.issue_errcode : (s.issue v).errcode = s.errcode := rfl
@[simp] theorem State.issue_addr : (s.issue v).addr = s.addr := rfl
@[simp] theorem State.issue_seq : (s.issue v).seq = s.seq := rfl
@[simp] theorem State.issue_code : (s.issue v).code = s.code := rfl
@[simp] theorem State.issue_scs : (s.issue v).scs = s.scs := rfl
@[simp] theorem State.issue_scblen : (s.issue v).scblen = s.scblen := rfl
@[simp] theorem State.issue_scbdata : (s.issue v).scbdata = s.scbdata := rfl
@[simp] theorem State.issue_rxctrl : (s.issue v).rxctrl = s.rxctrl := rfl
@[simp] theorem State.issue_dlen : (s.issue v).dlen = s.dlen := rfl
@[simp] theorem State.issue_flen : (s.issue v).flen = s.flen := rfl
@[simp] theorem State.issue_opoff : (s.issue v).opoff = s.opoff := rfl
@[simp] theorem State.issue_oplen : (s.issue v).oplen = s.oplen := rfl
@[simp] theorem State.issue_fcs : (s.issue v).fcs = s.fcs := rfl
@[simp] theorem State.issue_key : (s.issue v).key = s.key := rfl
@[simp] theorem State.issue_sEnc : (s.issue v).sEnc = s.sEnc := rfl
@[simp] theorem State.issue_sMac1 : (s.issue v).sMac1 = s.sMac1 := rfl
@[simp] theorem State.issue_sMac2 : (s.issue v).sMac2 = s.sMac2 := rfl
@[simp] theorem State.issue_cmac : (s.issue v).cmac = s.cmac := rfl
@[simp] theorem State.issue_rmac : (s.issue v).rmac = s.rmac := rfl
@[simp] theorem State.issue_rndA : (s.issue v).rndA = s.rndA := rfl
@[simp] theorem State.issue_rndB : (s.issue v).rndB = s.rndB := rfl
@[simp] theorem State.issue_ccrypt : (s.issue v).ccrypt = s.ccrypt := rfl
@[simp] theorem State.issue_scrypt : (s.issue v).scrypt = s.scrypt := rfl
@[simp] theorem State.issue_blk : (s.issue v).blk = s.blk := rfl
@[simp] theorem State.issue_mem : (s.issue v).mem = s.mem := rfl
@[simp] theorem State.issue_wait : (s.issue v).wait = s.latencies.headD 0 := rfl
@[simp] theorem State.issue_rng : (s.issue v).rng = s.rng := rfl
@[simp] theorem State.issue_life : (s.issue v).life = s.life := rfl
@[simp] theorem State.issue_busyReads : (s.issue v).busyReads = s.busyReads := rfl
@[simp] theorem State.issue_latencies : (s.issue v).latencies = s.latencies.tail := rfl
@[simp] theorem State.issue_host : (s.issue v).host = s.host := rfl
@[simp] theorem State.issue_answers : (s.issue v).answers = s.answers := rfl
@[simp] theorem State.issue_byte (a : Nat) : (s.issue v).byte a = s.byte a := rfl
@[simp] theorem State.issue_dbufByte (a : Nat) : (s.issue v).dbufByte a = s.dbufByte a := rfl
@[simp] theorem State.issue_fbufByte (a : Nat) : (s.issue v).fbufByte a = s.fbufByte a := rfl
@[simp] theorem State.issue_dbuf (a k : Nat) : (s.issue v).dbuf a k = s.dbuf a k := rfl
@[simp] theorem State.issue_fbuf (a k : Nat) : (s.issue v).fbuf a k = s.fbuf a k := rfl
end

/-! ### `writeDbuf` -/

section
variable (s : State) (i : Nat) (d : Bytes)
@[simp] theorem State.writeDbuf_opc : (s.writeDbuf i d).opc = s.opc := rfl
@[simp] theorem State.writeDbuf_ctrl : (s.writeDbuf i d).ctrl = s.ctrl := rfl
@[simp] theorem State.writeDbuf_status : (s.writeDbuf i d).status = s.status := rfl
@[simp] theorem State.writeDbuf_errcode : (s.writeDbuf i d).errcode = s.errcode := rfl
@[simp] theorem State.writeDbuf_addr : (s.writeDbuf i d).addr = s.addr := rfl
@[simp] theorem State.writeDbuf_seq : (s.writeDbuf i d).seq = s.seq := rfl
@[simp] theorem State.writeDbuf_code : (s.writeDbuf i d).code = s.code := rfl
@[simp] theorem State.writeDbuf_scs : (s.writeDbuf i d).scs = s.scs := rfl
@[simp] theorem State.writeDbuf_scblen : (s.writeDbuf i d).scblen = s.scblen := rfl
@[simp] theorem State.writeDbuf_scbdata : (s.writeDbuf i d).scbdata = s.scbdata := rfl
@[simp] theorem State.writeDbuf_rxctrl : (s.writeDbuf i d).rxctrl = s.rxctrl := rfl
@[simp] theorem State.writeDbuf_dlen : (s.writeDbuf i d).dlen = s.dlen := rfl
@[simp] theorem State.writeDbuf_flen : (s.writeDbuf i d).flen = s.flen := rfl
@[simp] theorem State.writeDbuf_opoff : (s.writeDbuf i d).opoff = s.opoff := rfl
@[simp] theorem State.writeDbuf_oplen : (s.writeDbuf i d).oplen = s.oplen := rfl
@[simp] theorem State.writeDbuf_fcs : (s.writeDbuf i d).fcs = s.fcs := rfl
@[simp] theorem State.writeDbuf_key : (s.writeDbuf i d).key = s.key := rfl
@[simp] theorem State.writeDbuf_sEnc : (s.writeDbuf i d).sEnc = s.sEnc := rfl
@[simp] theorem State.writeDbuf_sMac1 : (s.writeDbuf i d).sMac1 = s.sMac1 := rfl
@[simp] theorem State.writeDbuf_sMac2 : (s.writeDbuf i d).sMac2 = s.sMac2 := rfl
@[simp] theorem State.writeDbuf_cmac : (s.writeDbuf i d).cmac = s.cmac := rfl
@[simp] theorem State.writeDbuf_rmac : (s.writeDbuf i d).rmac = s.rmac := rfl
@[simp] theorem State.writeDbuf_rndA : (s.writeDbuf i d).rndA = s.rndA := rfl
@[simp] theorem State.writeDbuf_rndB : (s.writeDbuf i d).rndB = s.rndB := rfl
@[simp] theorem State.writeDbuf_ccrypt : (s.writeDbuf i d).ccrypt = s.ccrypt := rfl
@[simp] theorem State.writeDbuf_scrypt : (s.writeDbuf i d).scrypt = s.scrypt := rfl
@[simp] theorem State.writeDbuf_blk : (s.writeDbuf i d).blk = s.blk := rfl
@[simp] theorem State.writeDbuf_mem : (s.writeDbuf i d).mem = s.mem.writeBytes (Config.dbufBase + i) d := rfl
@[simp] theorem State.writeDbuf_wait : (s.writeDbuf i d).wait = s.wait := rfl
@[simp] theorem State.writeDbuf_rng : (s.writeDbuf i d).rng = s.rng := rfl
@[simp] theorem State.writeDbuf_life : (s.writeDbuf i d).life = s.life := rfl
@[simp] theorem State.writeDbuf_busyReads : (s.writeDbuf i d).busyReads = s.busyReads := rfl
@[simp] theorem State.writeDbuf_latencies : (s.writeDbuf i d).latencies = s.latencies := rfl
@[simp] theorem State.writeDbuf_host : (s.writeDbuf i d).host = s.host := rfl
@[simp] theorem State.writeDbuf_answers : (s.writeDbuf i d).answers = s.answers := rfl
end

/-! ### `writeFbuf` -/

section
variable (s : State) (i : Nat) (d : Bytes)
@[simp] theorem State.writeFbuf_opc : (s.writeFbuf i d).opc = s.opc := rfl
@[simp] theorem State.writeFbuf_ctrl : (s.writeFbuf i d).ctrl = s.ctrl := rfl
@[simp] theorem State.writeFbuf_status : (s.writeFbuf i d).status = s.status := rfl
@[simp] theorem State.writeFbuf_errcode : (s.writeFbuf i d).errcode = s.errcode := rfl
@[simp] theorem State.writeFbuf_addr : (s.writeFbuf i d).addr = s.addr := rfl
@[simp] theorem State.writeFbuf_seq : (s.writeFbuf i d).seq = s.seq := rfl
@[simp] theorem State.writeFbuf_code : (s.writeFbuf i d).code = s.code := rfl
@[simp] theorem State.writeFbuf_scs : (s.writeFbuf i d).scs = s.scs := rfl
@[simp] theorem State.writeFbuf_scblen : (s.writeFbuf i d).scblen = s.scblen := rfl
@[simp] theorem State.writeFbuf_scbdata : (s.writeFbuf i d).scbdata = s.scbdata := rfl
@[simp] theorem State.writeFbuf_rxctrl : (s.writeFbuf i d).rxctrl = s.rxctrl := rfl
@[simp] theorem State.writeFbuf_dlen : (s.writeFbuf i d).dlen = s.dlen := rfl
@[simp] theorem State.writeFbuf_flen : (s.writeFbuf i d).flen = s.flen := rfl
@[simp] theorem State.writeFbuf_opoff : (s.writeFbuf i d).opoff = s.opoff := rfl
@[simp] theorem State.writeFbuf_oplen : (s.writeFbuf i d).oplen = s.oplen := rfl
@[simp] theorem State.writeFbuf_fcs : (s.writeFbuf i d).fcs = s.fcs := rfl
@[simp] theorem State.writeFbuf_key : (s.writeFbuf i d).key = s.key := rfl
@[simp] theorem State.writeFbuf_sEnc : (s.writeFbuf i d).sEnc = s.sEnc := rfl
@[simp] theorem State.writeFbuf_sMac1 : (s.writeFbuf i d).sMac1 = s.sMac1 := rfl
@[simp] theorem State.writeFbuf_sMac2 : (s.writeFbuf i d).sMac2 = s.sMac2 := rfl
@[simp] theorem State.writeFbuf_cmac : (s.writeFbuf i d).cmac = s.cmac := rfl
@[simp] theorem State.writeFbuf_rmac : (s.writeFbuf i d).rmac = s.rmac := rfl
@[simp] theorem State.writeFbuf_rndA : (s.writeFbuf i d).rndA = s.rndA := rfl
@[simp] theorem State.writeFbuf_rndB : (s.writeFbuf i d).rndB = s.rndB := rfl
@[simp] theorem State.writeFbuf_ccrypt : (s.writeFbuf i d).ccrypt = s.ccrypt := rfl
@[simp] theorem State.writeFbuf_scrypt : (s.writeFbuf i d).scrypt = s.scrypt := rfl
@[simp] theorem State.writeFbuf_blk : (s.writeFbuf i d).blk = s.blk := rfl
@[simp] theorem State.writeFbuf_mem : (s.writeFbuf i d).mem = s.mem.writeBytes (Config.fbufBase + i) d := rfl
@[simp] theorem State.writeFbuf_wait : (s.writeFbuf i d).wait = s.wait := rfl
@[simp] theorem State.writeFbuf_rng : (s.writeFbuf i d).rng = s.rng := rfl
@[simp] theorem State.writeFbuf_life : (s.writeFbuf i d).life = s.life := rfl
@[simp] theorem State.writeFbuf_busyReads : (s.writeFbuf i d).busyReads = s.busyReads := rfl
@[simp] theorem State.writeFbuf_latencies : (s.writeFbuf i d).latencies = s.latencies := rfl
@[simp] theorem State.writeFbuf_host : (s.writeFbuf i d).host = s.host := rfl
@[simp] theorem State.writeFbuf_answers : (s.writeFbuf i d).answers = s.answers := rfl
end

/-! ### `acknowledge` -/

section
variable (s : State) (v : Byte)
@[simp] theorem State.acknowledge_opc : (s.acknowledge v).opc = s.opc := rfl
@[simp] theorem State.acknowledge_ctrl : (s.acknowledge v).ctrl = s.ctrl := rfl
@[simp] theorem State.acknowledge_status : (s.acknowledge v).status = clearStatus s.status v := rfl
@[simp] theorem State.acknowledge_errcode : (s.acknowledge v).errcode = s.errcode := rfl
@[simp] theorem State.acknowledge_addr : (s.acknowledge v).addr = s.addr := rfl
@[simp] theorem State.acknowledge_seq : (s.acknowledge v).seq = s.seq := rfl
@[simp] theorem State.acknowledge_code : (s.acknowledge v).code = s.code := rfl
@[simp] theorem State.acknowledge_scs : (s.acknowledge v).scs = s.scs := rfl
@[simp] theorem State.acknowledge_scblen : (s.acknowledge v).scblen = s.scblen := rfl
@[simp] theorem State.acknowledge_scbdata : (s.acknowledge v).scbdata = s.scbdata := rfl
@[simp] theorem State.acknowledge_rxctrl : (s.acknowledge v).rxctrl = s.rxctrl := rfl
@[simp] theorem State.acknowledge_dlen : (s.acknowledge v).dlen = s.dlen := rfl
@[simp] theorem State.acknowledge_flen : (s.acknowledge v).flen = s.flen := rfl
@[simp] theorem State.acknowledge_opoff : (s.acknowledge v).opoff = s.opoff := rfl
@[simp] theorem State.acknowledge_oplen : (s.acknowledge v).oplen = s.oplen := rfl
@[simp] theorem State.acknowledge_fcs : (s.acknowledge v).fcs = s.fcs := rfl
@[simp] theorem State.acknowledge_key : (s.acknowledge v).key = s.key := rfl
@[simp] theorem State.acknowledge_sEnc : (s.acknowledge v).sEnc = s.sEnc := rfl
@[simp] theorem State.acknowledge_sMac1 : (s.acknowledge v).sMac1 = s.sMac1 := rfl
@[simp] theorem State.acknowledge_sMac2 : (s.acknowledge v).sMac2 = s.sMac2 := rfl
@[simp] theorem State.acknowledge_cmac : (s.acknowledge v).cmac = s.cmac := rfl
@[simp] theorem State.acknowledge_rmac : (s.acknowledge v).rmac = s.rmac := rfl
@[simp] theorem State.acknowledge_rndA : (s.acknowledge v).rndA = s.rndA := rfl
@[simp] theorem State.acknowledge_rndB : (s.acknowledge v).rndB = s.rndB := rfl
@[simp] theorem State.acknowledge_ccrypt : (s.acknowledge v).ccrypt = s.ccrypt := rfl
@[simp] theorem State.acknowledge_scrypt : (s.acknowledge v).scrypt = s.scrypt := rfl
@[simp] theorem State.acknowledge_blk : (s.acknowledge v).blk = s.blk := rfl
@[simp] theorem State.acknowledge_mem : (s.acknowledge v).mem = s.mem := rfl
@[simp] theorem State.acknowledge_wait : (s.acknowledge v).wait = s.wait := rfl
@[simp] theorem State.acknowledge_rng : (s.acknowledge v).rng = s.rng := rfl
@[simp] theorem State.acknowledge_life : (s.acknowledge v).life = s.life := rfl
@[simp] theorem State.acknowledge_busyReads : (s.acknowledge v).busyReads = s.busyReads := rfl
@[simp] theorem State.acknowledge_latencies : (s.acknowledge v).latencies = s.latencies := rfl
@[simp] theorem State.acknowledge_host : (s.acknowledge v).host = s.host := rfl
@[simp] theorem State.acknowledge_answers : (s.acknowledge v).answers = s.answers := rfl
@[simp] theorem State.acknowledge_byte (a : Nat) : (s.acknowledge v).byte a = s.byte a := rfl
@[simp] theorem State.acknowledge_dbufByte (a : Nat) : (s.acknowledge v).dbufByte a = s.dbufByte a := rfl
@[simp] theorem State.acknowledge_fbufByte (a : Nat) : (s.acknowledge v).fbufByte a = s.fbufByte a := rfl
@[simp] theorem State.acknowledge_dbuf (a k : Nat) : (s.acknowledge v).dbuf a k = s.dbuf a k := rfl
@[simp] theorem State.acknowledge_fbuf (a k : Nat) : (s.acknowledge v).fbuf a k = s.fbuf a k := rfl
end

/-! ### `tick` -/

section
variable (s : State)
@[simp] theorem State.tick_opc : (s.tick).opc = s.opc := rfl
@[simp] theorem State.tick_ctrl : (s.tick).ctrl = s.ctrl := rfl
@[simp] theorem State.tick_status : (s.tick).status = s.status := rfl
@[simp] theorem State.tick_errcode : (s.tick).errcode = s.errcode := rfl
@[simp] theorem State.tick_addr : (s.tick).addr = s.addr := rfl
@[simp] theorem State.tick_seq : (s.tick).seq = s.seq := rfl
@[simp] theorem State.tick_code : (s.tick).code = s.code := rfl
@[simp] theorem State.tick_scs : (s.tick).scs = s.scs := rfl
@[simp] theorem State.tick_scblen : (s.tick).scblen = s.scblen := rfl
@[simp] theorem State.tick_scbdata : (s.tick).scbdata = s.scbdata := rfl
@[simp] theorem State.tick_rxctrl : (s.tick).rxctrl = s.rxctrl := rfl
@[simp] theorem State.tick_dlen : (s.tick).dlen = s.dlen := rfl
@[simp] theorem State.tick_flen : (s.tick).flen = s.flen := rfl
@[simp] theorem State.tick_opoff : (s.tick).opoff = s.opoff := rfl
@[simp] theorem State.tick_oplen : (s.tick).oplen = s.oplen := rfl
@[simp] theorem State.tick_fcs : (s.tick).fcs = s.fcs := rfl
@[simp] theorem State.tick_key : (s.tick).key = s.key := rfl
@[simp] theorem State.tick_sEnc : (s.tick).sEnc = s.sEnc := rfl
@[simp] theorem State.tick_sMac1 : (s.tick).sMac1 = s.sMac1 := rfl
@[simp] theorem State.tick_sMac2 : (s.tick).sMac2 = s.sMac2 := rfl
@[simp] theorem State.tick_cmac : (s.tick).cmac = s.cmac := rfl
@[simp] theorem State.tick_rmac : (s.tick).rmac = s.rmac := rfl
@[simp] theorem State.tick_rndA : (s.tick).rndA = s.rndA := rfl
@[simp] theorem State.tick_rndB : (s.tick).rndB = s.rndB := rfl
@[simp] theorem State.tick_ccrypt : (s.tick).ccrypt = s.ccrypt := rfl
@[simp] theorem State.tick_scrypt : (s.tick).scrypt = s.scrypt := rfl
@[simp] theorem State.tick_blk : (s.tick).blk = s.blk := rfl
@[simp] theorem State.tick_mem : (s.tick).mem = s.mem := rfl
@[simp] theorem State.tick_wait : (s.tick).wait = if s.busy then s.wait - 1 else s.wait := rfl
@[simp] theorem State.tick_rng : (s.tick).rng = s.rng := rfl
@[simp] theorem State.tick_life : (s.tick).life = s.life := rfl
@[simp] theorem State.tick_busyReads : (s.tick).busyReads = s.busyReads := rfl
@[simp] theorem State.tick_latencies : (s.tick).latencies = s.latencies := rfl
@[simp] theorem State.tick_host : (s.tick).host = s.host := rfl
@[simp] theorem State.tick_answers : (s.tick).answers = s.answers := rfl
@[simp] theorem State.tick_byte (a : Nat) : (s.tick).byte a = s.byte a := rfl
@[simp] theorem State.tick_dbufByte (a : Nat) : (s.tick).dbufByte a = s.dbufByte a := rfl
@[simp] theorem State.tick_fbufByte (a : Nat) : (s.tick).fbufByte a = s.fbufByte a := rfl
@[simp] theorem State.tick_dbuf (a k : Nat) : (s.tick).dbuf a k = s.dbuf a k := rfl
@[simp] theorem State.tick_fbuf (a k : Nat) : (s.tick).fbuf a k = s.fbuf a k := rfl
end

/-! ### `answerRead` -/

section
variable (s : State) (o : Nat)
@[simp] theorem State.answerRead_opc : (s.answerRead o).opc = s.opc := rfl
@[simp] theorem State.answerRead_ctrl : (s.answerRead o).ctrl = s.ctrl := rfl
@[simp] theorem State.answerRead_status : (s.answerRead o).status = s.status := rfl
@[simp] theorem State.answerRead_errcode : (s.answerRead o).errcode = s.errcode := rfl
@[simp] theorem State.answerRead_addr : (s.answerRead o).addr = s.addr := rfl
@[simp] theorem State.answerRead_seq : (s.answerRead o).seq = s.seq := rfl
@[simp] theorem State.answerRead_code : (s.answerRead o).code = s.code := rfl
@[simp] theorem State.answerRead_scs : (s.answerRead o).scs = s.scs := rfl
@[simp] theorem State.answerRead_scblen : (s.answerRead o).scblen = s.scblen := rfl
@[simp] theorem State.answerRead_scbdata : (s.answerRead o).scbdata = s.scbdata := rfl
@[simp] theorem State.answerRead_rxctrl : (s.answerRead o).rxctrl = s.rxctrl := rfl
@[simp] theorem State.answerRead_dlen : (s.answerRead o).dlen = s.dlen := rfl
@[simp] theorem State.answerRead_flen : (s.answerRead o).flen = s.flen := rfl
@[simp] theorem State.answerRead_opoff : (s.answerRead o).opoff = s.opoff := rfl
@[simp] theorem State.answerRead_oplen : (s.answerRead o).oplen = s.oplen := rfl
@[simp] theorem State.answerRead_fcs : (s.answerRead o).fcs = s.fcs := rfl
@[simp] theorem State.answerRead_key : (s.answerRead o).key = s.key := rfl
@[simp] theorem State.answerRead_sEnc : (s.answerRead o).sEnc = s.sEnc := rfl
@[simp] theorem State.answerRead_sMac1 : (s.answerRead o).sMac1 = s.sMac1 := rfl
@[simp] theorem State.answerRead_sMac2 : (s.answerRead o).sMac2 = s.sMac2 := rfl
@[simp] theorem State.answerRead_cmac : (s.answerRead o).cmac = s.cmac := rfl
@[simp] theorem State.answerRead_rmac : (s.answerRead o).rmac = s.rmac := rfl
@[simp] theorem State.answerRead_rndA : (s.answerRead o).rndA = s.rndA := rfl
@[simp] theorem State.answerRead_rndB : (s.answerRead o).rndB = s.rndB := rfl
@[simp] theorem State.answerRead_ccrypt : (s.answerRead o).ccrypt = s.ccrypt := rfl
@[simp] theorem State.answerRead_scrypt : (s.answerRead o).scrypt = s.scrypt := rfl
@[simp] theorem State.answerRead_blk : (s.answerRead o).blk = s.blk := rfl
@[simp] theorem State.answerRead_mem : (s.answerRead o).mem = s.mem := rfl
@[simp] theorem State.answerRead_wait : (s.answerRead o).wait = s.wait := rfl
@[simp] theorem State.answerRead_rng : (s.answerRead o).rng = s.rng := rfl
@[simp] theorem State.answerRead_life : (s.answerRead o).life = s.life := rfl
@[simp] theorem State.answerRead_busyReads : (s.answerRead o).busyReads = if s.busy && !steadyOffset o then s.busyReads + 1 else s.busyReads := rfl
@[simp] theorem State.answerRead_latencies : (s.answerRead o).latencies = s.latencies := rfl
@[simp] theorem State.answerRead_host : (s.answerRead o).host = s.host := rfl
@[simp] theorem State.answerRead_answers : (s.answerRead o).answers = (o, s.hostRead o) :: s.answers := rfl
@[simp] theorem State.answerRead_byte (a : Nat) : (s.answerRead o).byte a = s.byte a := rfl
@[simp] theorem State.answerRead_dbufByte (a : Nat) : (s.answerRead o).dbufByte a = s.dbufByte a := rfl
@[simp] theorem State.answerRead_fbufByte (a : Nat) : (s.answerRead o).fbufByte a = s.fbufByte a := rfl
@[simp] theorem State.answerRead_dbuf (a k : Nat) : (s.answerRead o).dbuf a k = s.dbuf a k := rfl
@[simp] theorem State.answerRead_fbuf (a k : Nat) : (s.answerRead o).fbuf a k = s.fbuf a k := rfl
end

/-! ### `softReset` -/

section
variable (s : State)
@[simp] theorem State.softReset_opc : (s.softReset).opc = s.opc := rfl
@[simp] theorem State.softReset_ctrl : (s.softReset).ctrl = State.reset.ctrl := rfl
@[simp] theorem State.softReset_status : (s.softReset).status = State.reset.status := rfl
@[simp] theorem State.softReset_errcode : (s.softReset).errcode = State.reset.errcode := rfl
@[simp] theorem State.softReset_addr : (s.softReset).addr = State.reset.addr := rfl
@[simp] theorem State.softReset_seq : (s.softReset).seq = State.reset.seq := rfl
@[simp] theorem State.softReset_code : (s.softReset).code = State.reset.code := rfl
@[simp] theorem State.softReset_scs : (s.softReset).scs = State.reset.scs := rfl
@[simp] theorem State.softReset_scblen : (s.softReset).scblen = State.reset.scblen := rfl
@[simp] theorem State.softReset_scbdata : (s.softReset).scbdata = State.reset.scbdata := rfl
@[simp] theorem State.softReset_rxctrl : (s.softReset).rxctrl = State.reset.rxctrl := rfl
@[simp] theorem State.softReset_dlen : (s.softReset).dlen = State.reset.dlen := rfl
@[simp] theorem State.softReset_flen : (s.softReset).flen = State.reset.flen := rfl
@[simp] theorem State.softReset_opoff : (s.softReset).opoff = State.reset.opoff := rfl
@[simp] theorem State.softReset_oplen : (s.softReset).oplen = State.reset.oplen := rfl
@[simp] theorem State.softReset_fcs : (s.softReset).fcs = State.reset.fcs := rfl
@[simp] theorem State.softReset_key : (s.softReset).key = State.reset.key := rfl
@[simp] theorem State.softReset_sEnc : (s.softReset).sEnc = State.reset.sEnc := rfl
@[simp] theorem State.softReset_sMac1 : (s.softReset).sMac1 = State.reset.sMac1 := rfl
@[simp] theorem State.softReset_sMac2 : (s.softReset).sMac2 = State.reset.sMac2 := rfl
@[simp] theorem State.softReset_cmac : (s.softReset).cmac = State.reset.cmac := rfl
@[simp] theorem State.softReset_rmac : (s.softReset).rmac = State.reset.rmac := rfl
@[simp] theorem State.softReset_rndA : (s.softReset).rndA = State.reset.rndA := rfl
@[simp] theorem State.softReset_rndB : (s.softReset).rndB = State.reset.rndB := rfl
@[simp] theorem State.softReset_ccrypt : (s.softReset).ccrypt = State.reset.ccrypt := rfl
@[simp] theorem State.softReset_scrypt : (s.softReset).scrypt = State.reset.scrypt := rfl
@[simp] theorem State.softReset_blk : (s.softReset).blk = State.reset.blk := rfl
@[simp] theorem State.softReset_mem : (s.softReset).mem = s.mem := rfl
@[simp] theorem State.softReset_wait : (s.softReset).wait = s.wait := rfl
@[simp] theorem State.softReset_rng : (s.softReset).rng = s.rng := rfl
@[simp] theorem State.softReset_life : (s.softReset).life = s.life := rfl
@[simp] theorem State.softReset_busyReads : (s.softReset).busyReads = s.busyReads := rfl
@[simp] theorem State.softReset_latencies : (s.softReset).latencies = s.latencies := rfl
@[simp] theorem State.softReset_host : (s.softReset).host = s.host := rfl
@[simp] theorem State.softReset_answers : (s.softReset).answers = s.answers := rfl
@[simp] theorem State.softReset_byte (a : Nat) : (s.softReset).byte a = s.byte a := rfl
@[simp] theorem State.softReset_dbufByte (a : Nat) : (s.softReset).dbufByte a = s.dbufByte a := rfl
@[simp] theorem State.softReset_fbufByte (a : Nat) : (s.softReset).fbufByte a = s.fbufByte a := rfl
@[simp] theorem State.softReset_dbuf (a k : Nat) : (s.softReset).dbuf a k = s.dbuf a k := rfl
@[simp] theorem State.softReset_fbuf (a k : Nat) : (s.softReset).fbuf a k = s.fbuf a k := rfl
end

/-! ### `setAccumulator_command` -/

section
variable (s : State) (t : Block)
@[simp] theorem State.setAccumulator_command_opc : (s.setAccumulator .command t).opc = s.opc := rfl
@[simp] theorem State.setAccumulator_command_ctrl : (s.setAccumulator .command t).ctrl = s.ctrl := rfl
@[simp] theorem State.setAccumulator_command_status : (s.setAccumulator .command t).status = s.status := rfl
@[simp] theorem State.setAccumulator_command_errcode : (s.setAccumulator .command t).errcode = s.errcode := rfl
@[simp] theorem State.setAccumulator_command_addr : (s.setAccumulator .command t).addr = s.addr := rfl
@[simp] theorem State.setAccumulator_command_seq : (s.setAccumulator .command t).seq = s.seq := rfl
@[simp] theorem State.setAccumulator_command_code : (s.setAccumulator .command t).code = s.code := rfl
@[simp] theorem State.setAccumulator_command_scs : (s.setAccumulator .command t).scs = s.scs := rfl
@[simp] theorem State.setAccumulator_command_scblen : (s.setAccumulator .command t).scblen = s.scblen := rfl
@[simp] theorem State.setAccumulator_command_scbdata : (s.setAccumulator .command t).scbdata = s.scbdata := rfl
@[simp] theorem State.setAccumulator_command_rxctrl : (s.setAccumulator .command t).rxctrl = s.rxctrl := rfl
@[simp] theorem State.setAccumulator_command_dlen : (s.setAccumulator .command t).dlen = s.dlen := rfl
@[simp] theorem State.setAccumulator_command_flen : (s.setAccumulator .command t).flen = s.flen := rfl
@[simp] theorem State.setAccumulator_command_opoff : (s.setAccumulator .command t).opoff = s.opoff := rfl
@[simp] theorem State.setAccumulator_command_oplen : (s.setAccumulator .command t).oplen = s.oplen := rfl
@[simp] theorem State.setAccumulator_command_fcs : (s.setAccumulator .command t).fcs = s.fcs := rfl
@[simp] theorem State.setAccumulator_command_key : (s.setAccumulator .command t).key = s.key := rfl
@[simp] theorem State.setAccumulator_command_sEnc : (s.setAccumulator .command t).sEnc = s.sEnc := rfl
@[simp] theorem State.setAccumulator_command_sMac1 : (s.setAccumulator .command t).sMac1 = s.sMac1 := rfl
@[simp] theorem State.setAccumulator_command_sMac2 : (s.setAccumulator .command t).sMac2 = s.sMac2 := rfl
@[simp] theorem State.setAccumulator_command_cmac : (s.setAccumulator .command t).cmac = t := rfl
@[simp] theorem State.setAccumulator_command_rmac : (s.setAccumulator .command t).rmac = s.rmac := rfl
@[simp] theorem State.setAccumulator_command_rndA : (s.setAccumulator .command t).rndA = s.rndA := rfl
@[simp] theorem State.setAccumulator_command_rndB : (s.setAccumulator .command t).rndB = s.rndB := rfl
@[simp] theorem State.setAccumulator_command_ccrypt : (s.setAccumulator .command t).ccrypt = s.ccrypt := rfl
@[simp] theorem State.setAccumulator_command_scrypt : (s.setAccumulator .command t).scrypt = s.scrypt := rfl
@[simp] theorem State.setAccumulator_command_blk : (s.setAccumulator .command t).blk = s.blk := rfl
@[simp] theorem State.setAccumulator_command_mem : (s.setAccumulator .command t).mem = s.mem := rfl
@[simp] theorem State.setAccumulator_command_wait : (s.setAccumulator .command t).wait = s.wait := rfl
@[simp] theorem State.setAccumulator_command_rng : (s.setAccumulator .command t).rng = s.rng := rfl
@[simp] theorem State.setAccumulator_command_life : (s.setAccumulator .command t).life = s.life := rfl
@[simp] theorem State.setAccumulator_command_busyReads : (s.setAccumulator .command t).busyReads = s.busyReads := rfl
@[simp] theorem State.setAccumulator_command_latencies : (s.setAccumulator .command t).latencies = s.latencies := rfl
@[simp] theorem State.setAccumulator_command_host : (s.setAccumulator .command t).host = s.host := rfl
@[simp] theorem State.setAccumulator_command_answers : (s.setAccumulator .command t).answers = s.answers := rfl
@[simp] theorem State.setAccumulator_command_byte (a : Nat) : (s.setAccumulator .command t).byte a = s.byte a := rfl
@[simp] theorem State.setAccumulator_command_dbufByte (a : Nat) : (s.setAccumulator .command t).dbufByte a = s.dbufByte a := rfl
@[simp] theorem State.setAccumulator_command_fbufByte (a : Nat) : (s.setAccumulator .command t).fbufByte a = s.fbufByte a := rfl
@[simp] theorem State.setAccumulator_command_dbuf (a k : Nat) : (s.setAccumulator .command t).dbuf a k = s.dbuf a k := rfl
@[simp] theorem State.setAccumulator_command_fbuf (a k : Nat) : (s.setAccumulator .command t).fbuf a k = s.fbuf a k := rfl
end

/-! ### `setAccumulator_reply` -/

section
variable (s : State) (t : Block)
@[simp] theorem State.setAccumulator_reply_opc : (s.setAccumulator .reply t).opc = s.opc := rfl
@[simp] theorem State.setAccumulator_reply_ctrl : (s.setAccumulator .reply t).ctrl = s.ctrl := rfl
@[simp] theorem State.setAccumulator_reply_status : (s.setAccumulator .reply t).status = s.status := rfl
@[simp] theorem State.setAccumulator_reply_errcode : (s.setAccumulator .reply t).errcode = s.errcode := rfl
@[simp] theorem State.setAccumulator_reply_addr : (s.setAccumulator .reply t).addr = s.addr := rfl
@[simp] theorem State.setAccumulator_reply_seq : (s.setAccumulator .reply t).seq = s.seq := rfl
@[simp] theorem State.setAccumulator_reply_code : (s.setAccumulator .reply t).code = s.code := rfl
@[simp] theorem State.setAccumulator_reply_scs : (s.setAccumulator .reply t).scs = s.scs := rfl
@[simp] theorem State.setAccumulator_reply_scblen : (s.setAccumulator .reply t).scblen = s.scblen := rfl
@[simp] theorem State.setAccumulator_reply_scbdata : (s.setAccumulator .reply t).scbdata = s.scbdata := rfl
@[simp] theorem State.setAccumulator_reply_rxctrl : (s.setAccumulator .reply t).rxctrl = s.rxctrl := rfl
@[simp] theorem State.setAccumulator_reply_dlen : (s.setAccumulator .reply t).dlen = s.dlen := rfl
@[simp] theorem State.setAccumulator_reply_flen : (s.setAccumulator .reply t).flen = s.flen := rfl
@[simp] theorem State.setAccumulator_reply_opoff : (s.setAccumulator .reply t).opoff = s.opoff := rfl
@[simp] theorem State.setAccumulator_reply_oplen : (s.setAccumulator .reply t).oplen = s.oplen := rfl
@[simp] theorem State.setAccumulator_reply_fcs : (s.setAccumulator .reply t).fcs = s.fcs := rfl
@[simp] theorem State.setAccumulator_reply_key : (s.setAccumulator .reply t).key = s.key := rfl
@[simp] theorem State.setAccumulator_reply_sEnc : (s.setAccumulator .reply t).sEnc = s.sEnc := rfl
@[simp] theorem State.setAccumulator_reply_sMac1 : (s.setAccumulator .reply t).sMac1 = s.sMac1 := rfl
@[simp] theorem State.setAccumulator_reply_sMac2 : (s.setAccumulator .reply t).sMac2 = s.sMac2 := rfl
@[simp] theorem State.setAccumulator_reply_cmac : (s.setAccumulator .reply t).cmac = s.cmac := rfl
@[simp] theorem State.setAccumulator_reply_rmac : (s.setAccumulator .reply t).rmac = t := rfl
@[simp] theorem State.setAccumulator_reply_rndA : (s.setAccumulator .reply t).rndA = s.rndA := rfl
@[simp] theorem State.setAccumulator_reply_rndB : (s.setAccumulator .reply t).rndB = s.rndB := rfl
@[simp] theorem State.setAccumulator_reply_ccrypt : (s.setAccumulator .reply t).ccrypt = s.ccrypt := rfl
@[simp] theorem State.setAccumulator_reply_scrypt : (s.setAccumulator .reply t).scrypt = s.scrypt := rfl
@[simp] theorem State.setAccumulator_reply_blk : (s.setAccumulator .reply t).blk = s.blk := rfl
@[simp] theorem State.setAccumulator_reply_mem : (s.setAccumulator .reply t).mem = s.mem := rfl
@[simp] theorem State.setAccumulator_reply_wait : (s.setAccumulator .reply t).wait = s.wait := rfl
@[simp] theorem State.setAccumulator_reply_rng : (s.setAccumulator .reply t).rng = s.rng := rfl
@[simp] theorem State.setAccumulator_reply_life : (s.setAccumulator .reply t).life = s.life := rfl
@[simp] theorem State.setAccumulator_reply_busyReads : (s.setAccumulator .reply t).busyReads = s.busyReads := rfl
@[simp] theorem State.setAccumulator_reply_latencies : (s.setAccumulator .reply t).latencies = s.latencies := rfl
@[simp] theorem State.setAccumulator_reply_host : (s.setAccumulator .reply t).host = s.host := rfl
@[simp] theorem State.setAccumulator_reply_answers : (s.setAccumulator .reply t).answers = s.answers := rfl
@[simp] theorem State.setAccumulator_reply_byte (a : Nat) : (s.setAccumulator .reply t).byte a = s.byte a := rfl
@[simp] theorem State.setAccumulator_reply_dbufByte (a : Nat) : (s.setAccumulator .reply t).dbufByte a = s.dbufByte a := rfl
@[simp] theorem State.setAccumulator_reply_fbufByte (a : Nat) : (s.setAccumulator .reply t).fbufByte a = s.fbufByte a := rfl
@[simp] theorem State.setAccumulator_reply_dbuf (a k : Nat) : (s.setAccumulator .reply t).dbuf a k = s.dbuf a k := rfl
@[simp] theorem State.setAccumulator_reply_fbuf (a k : Nat) : (s.setAccumulator .reply t).fbuf a k = s.fbuf a k := rfl
end

end Sys2Proof.Machine
end

