-- ==== Sys2Proof/Laws/Flags.lean ====
section
/-! SUPPORT. The bits of STATUS under one bit's write and under a completion, and the completion as the statements name it. -/

namespace Sys2Proof.Machine

theorem getLsbD_setBit (b : Byte) (n m : Nat) (v : Bool) (hm : m < 8) (hn : n < 8) :
    (setBit b n v).getLsbD m = if m = n then v else b.getLsbD m := by
  unfold setBit
  by_cases h : m = n
  · subst h
    cases v <;> simp [hm]
  · cases v
    · simp only [Bool.false_eq_true, if_false, h, BitVec.getLsbD_and, BitVec.getLsbD_not, BitVec.getLsbD_shiftLeft,
        BitVec.getLsbD_one, hm]
      have : m < n ∨ ¬ m - n = 0 := by omega
      simp_all
    · simp only [if_true, h, BitVec.getLsbD_or, BitVec.getLsbD_shiftLeft, BitVec.getLsbD_one, hm]
      have : ¬ (¬ m < n ∧ m - n = 0) := by omega
      simp_all

/-- The bit of STATUS a flag is (10_state.md R25). -/
def Flag.bit : Flag → Nat
  | .busy => 0
  | .done => 1
  | .err => 2
  | .ovr => 3
  | .established => 4
  | .matched => 5
  | .defkey => 6

theorem Flag.bit_lt (f : Flag) : f.bit < 8 := by cases f <;> decide

theorem Flag.bit_inj {f g : Flag} (h : f.bit = g.bit) : f = g := by
  cases f <;> cases g <;> first | rfl | exact absurd h (by decide)

theorem State.flag_eq (s : State) (f : Flag) : s.flag f = s.status.getLsbD f.bit := by cases f <;> rfl

theorem State.flag_setStatusBit (s : State) (n : Nat) (v : Bool) (hn : n < 8) (f : Flag) :
    (s.setStatusBit n v).flag f = if f.bit = n then v else s.flag f := by
  rw [State.flag_eq, State.flag_eq, State.setStatusBit_status, getLsbD_setBit _ _ _ _ f.bit_lt hn]

section
variable (s : State) (v : Bool) (n : Nat)

@[simp] theorem State.busy_setStatusBit (hn : n < 8) :
    (s.setStatusBit n v).busy = if 0 = n then v else s.busy := s.flag_setStatusBit n v hn .busy
@[simp] theorem State.done_setStatusBit (hn : n < 8) :
    (s.setStatusBit n v).done = if 1 = n then v else s.done := s.flag_setStatusBit n v hn .done
@[simp] theorem State.err_setStatusBit (hn : n < 8) :
    (s.setStatusBit n v).err = if 2 = n then v else s.err := s.flag_setStatusBit n v hn .err
@[simp] theorem State.ovr_setStatusBit (hn : n < 8) :
    (s.setStatusBit n v).ovr = if 3 = n then v else s.ovr := s.flag_setStatusBit n v hn .ovr
@[simp] theorem State.established_setStatusBit (hn : n < 8) :
    (s.setStatusBit n v).established = if 4 = n then v else s.established := s.flag_setStatusBit n v hn .established
@[simp] theorem State.matched_setStatusBit (hn : n < 8) :
    (s.setStatusBit n v).matched = if 5 = n then v else s.matched := s.flag_setStatusBit n v hn .matched
@[simp] theorem State.defkey_setStatusBit (hn : n < 8) :
    (s.setStatusBit n v).defkey = if 6 = n then v else s.defkey := s.flag_setStatusBit n v hn .defkey

end

/-! ### A completion -/

/-- The bits of STATUS after a completion. -/
theorem State.getLsbD_complete (s : State) (c : Byte) (k : Nat) (hk : k < 8) :
    (s.complete c).status.getLsbD k =
      if k = 1 then true else if k = 0 then false else if k = 2 then (s.err || c != 0) else s.status.getLsbD k := by
  rw [State.complete_status, getLsbD_setBit _ _ _ _ hk (by decide), getLsbD_setBit _ _ _ _ hk (by decide),
    getLsbD_setBit _ _ _ _ hk (by decide)]

section
variable (s : State) (c : Byte)

@[simp] theorem State.busy_complete : (s.complete c).busy = false := s.getLsbD_complete c 0 (by decide)
@[simp] theorem State.done_complete : (s.complete c).done = true := s.getLsbD_complete c 1 (by decide)
@[simp] theorem State.err_complete : (s.complete c).err = (s.err || c != 0) := s.getLsbD_complete c 2 (by decide)
@[simp] theorem State.ovr_complete : (s.complete c).ovr = s.ovr := s.getLsbD_complete c 3 (by decide)
@[simp] theorem State.established_complete : (s.complete c).established = s.established := s.getLsbD_complete c 4 (by decide)
@[simp] theorem State.matched_complete : (s.complete c).matched = s.matched := s.getLsbD_complete c 5 (by decide)
@[simp] theorem State.defkey_complete : (s.complete c).defkey = s.defkey := s.getLsbD_complete c 6 (by decide)

end

/-- A completion changes no flag but BUSY, DONE and ERR. -/
theorem State.flag_complete (s : State) (c : Byte) (f : Flag) (h : f ∉ [Flag.busy, Flag.done, Flag.err]) :
    (s.complete c).flag f = s.flag f := by
  cases f <;> simp_all [State.flag]

/-- A completion changes no register but STATUS and ERRCODE. -/
theorem State.regByte_complete (s : State) (c : Byte) (r : Reg) (i : Nat) (h : r ∉ [Reg.status, Reg.errcode]) :
    (s.complete c).regByte r i = s.regByte r i := by
  cases r <;> first | rfl | simp_all

/-- One bit of STATUS written changes no other register. -/
theorem State.regByte_setStatusBit (s : State) (n : Nat) (v : Bool) (r : Reg) (i : Nat) (h : r ≠ Reg.status) :
    (s.setStatusBit n v).regByte r i = s.regByte r i := by
  cases r <;> first | rfl | simp_all

theorem ErrCode.toByte_ne_zero (e : ErrCode) : e.toByte ≠ 0 := by cases e <;> decide

theorem ErrCode.toByte_le (e : ErrCode) : e.toByte ≤ 0x0C := by cases e <;> decide

/-- What `finish` answers ends the instruction as a success. -/
theorem succeeds_complete (s u : State) (h : u.err = s.err) : Succeeds s (u.complete 0x00) := by
  simp [Succeeds, h]

/-- What `raiseError` answers ends the instruction as a failure. -/
theorem fails_complete (e : ErrCode) (u : State) : Fails e (u.complete e.toByte) := by
  refine ⟨rfl, by simp, by simp, ?_⟩
  cases e <;> simp [ErrCode.toByte]

/-! ### Frames -/

theorem HiddenKept.refl (s : State) : HiddenKept s s := ⟨rfl, rfl, rfl, rfl, rfl, rfl, rfl⟩

theorem Unchanged.refl (regs : List Reg) (flags : List Flag) (st : Nat → Prop) (s : State) : Unchanged regs flags st s s :=
  ⟨fun _ _ _ => rfl, fun _ _ => rfl, fun _ _ => rfl, .refl s⟩

/-- A frame survives the completion that ends the instruction. -/
theorem Unchanged.complete {regs : List Reg} {flags : List Flag} {st : Nat → Prop} {s t : State} (c : Byte)
    (h : Unchanged regs flags st s t) : Unchanged regs flags st s (t.complete c) := by
  obtain ⟨h1, h2, h3, h4⟩ := h
  refine ⟨fun r hr i => ?_, fun f hf => ?_, fun a ha => h3 a ha, h4⟩
  · rw [State.regByte_complete _ _ _ _ (by simp at hr ⊢; tauto), h1 r hr i]
  · rw [State.flag_complete _ _ _ (by simp at hf ⊢; tauto), h2 f hf]

/-- One bit of STATUS written keeps a frame that names the bit's flag. -/
theorem Unchanged.setStatusBit {regs : List Reg} {flags : List Flag} {st : Nat → Prop} {s t : State} (f : Flag) (v : Bool)
    (hf : f ∈ flags) (h : Unchanged regs flags st s t) : Unchanged regs flags st s (t.setStatusBit f.bit v) := by
  obtain ⟨h1, h2, h3, h4⟩ := h
  refine ⟨fun r hr i => ?_, fun g hg => ?_, fun a ha => h3 a ha, h4⟩
  · rw [State.regByte_setStatusBit _ _ _ _ _ (by rintro rfl; simp at hr), h1 r hr i]
  · have hne : g.bit ≠ f.bit := by
      intro hbit
      obtain rfl := Flag.bit_inj hbit
      exact hg (by simp [hf])
    rw [State.flag_setStatusBit _ _ _ f.bit_lt, if_neg hne, h2 g hg]

theorem failsCleanly_raise (e : ErrCode) (s : State) : FailsCleanly e s (s.complete e.toByte) :=
  ⟨fails_complete e s, (Unchanged.refl _ _ _ s).complete _⟩

theorem failsUnmatched_raise (e : ErrCode) (s : State) :
    FailsUnmatched e s ((s.setMatched false).complete e.toByte) := by
  refine ⟨fails_complete e _, by simp, Unchanged.complete _ ?_⟩
  exact Unchanged.setStatusBit .matched false (by simp) (.refl _ _ _ s)

end Sys2Proof.Machine
end

