-- ==== Sys2Proof/Laws/Memory.lean ====
section
/-! SUPPORT. The buffers: a read after a write, the canonical form, and that equal buffers are equal lists. -/

namespace Sys2Proof.Machine

namespace Memory

variable {life : Nat}

/-! ### One byte -/

theorem get?_set (m : Memory) (a b : Nat) (v : Byte) :
    (m.set a v).get? b = if b = a then some v else m.get? b := by
  induction m with
  | nil =>
    simp only [Memory.set, Memory.get?]
    split_ifs <;> first | rfl | omega
  | cons c rest ih =>
    obtain ⟨k, w⟩ := c
    simp only [Memory.set]
    split_ifs with h1 h2 h3 h3 <;> simp only [Memory.get?, ih] <;> split_ifs <;> first | rfl | omega

@[simp] theorem read_set_same (m : Memory) (a : Nat) (v : Byte) : (m.set a v).read life a = v := by
  simp [Memory.read, get?_set]

theorem read_set_other (m : Memory) (a b : Nat) (v : Byte) (h : b ≠ a) : (m.set a v).read life b = m.read life b := by
  simp [Memory.read, get?_set, h]

theorem read_set (m : Memory) (a b : Nat) (v : Byte) : (m.set a v).read life b = if b = a then v else m.read life b := by
  split_ifs with h
  · subst h; simp
  · exact read_set_other m a b v h

/-- A byte that nothing has written since power-on. -/
@[simp] theorem read_nil (a : Nat) : Memory.read [] life a = Config.bufInit life a := rfl

/-! ### Byte strings -/

@[simp] theorem length_readBytes (m : Memory) (a n : Nat) : (m.readBytes life a n).length = n := by
  induction n generalizing a with
  | zero => rfl
  | succ n ih => simp [Memory.readBytes, ih]

theorem getElem_readBytes (m : Memory) (a n i : Nat) (h : i < (m.readBytes life a n).length) :
    (m.readBytes life a n)[i] = m.read life (a + i) := by
  induction n generalizing a i with
  | zero => simp at h
  | succ n ih =>
    cases i with
    | zero => rfl
    | succ i =>
      simp only [Memory.readBytes, List.getElem_cons_succ]
      rw [ih]
      congr 1; omega

theorem readBytes_add (m : Memory) (a n k : Nat) :
    m.readBytes life a (n + k) = m.readBytes life a n ++ m.readBytes life (a + n) k := by
  induction n generalizing a with
  | zero => simp [Memory.readBytes]
  | succ n ih =>
    rw [show n + 1 + k = (n + k) + 1 by omega]
    simp only [Memory.readBytes, ih, List.cons_append]
    rw [show a + 1 + n = a + (n + 1) by omega]

/-- Two memories that agree on a span read the same string there. -/
theorem readBytes_congr (m m' : Memory) (a n : Nat) (h : ∀ b, a ≤ b → b < a + n → m.read life b = m'.read life b) :
    m.readBytes life a n = m'.readBytes life a n := by
  induction n generalizing a with
  | zero => rfl
  | succ n ih =>
    simp only [Memory.readBytes]
    rw [h a (by omega) (by omega), ih (a + 1) fun b h1 h2 => h b (by omega) (by omega)]

/-- A byte outside the stored span is unchanged. -/
theorem read_writeBytes_outside (m : Memory) (a b : Nat) (d : Bytes) (h : b < a ∨ a + d.length ≤ b) :
    (m.writeBytes a d).read life b = m.read life b := by
  induction d generalizing m a with
  | nil => rfl
  | cons x xs ih =>
    simp only [List.length_cons] at h
    rw [Memory.writeBytes, ih (m.set a x) (a + 1) (by omega), read_set_other _ _ _ _ (by omega)]

/-- A byte inside the stored span is the string's. -/
theorem read_writeBytes_inside (m : Memory) (a i : Nat) (d : Bytes) (h : i < d.length) :
    (m.writeBytes a d).read life (a + i) = d[i] := by
  induction d generalizing m a i with
  | nil => simp at h
  | cons x xs ih =>
    cases i with
    | zero =>
      rw [Memory.writeBytes, read_writeBytes_outside _ _ _ _ (by omega)]
      exact read_set_same m a x
    | succ i =>
      rw [Memory.writeBytes, show a + (i + 1) = a + 1 + i by omega]
      exact ih (m.set a x) (a + 1) i (by simpa using h)

/-- Reading a span just stored gives the string. -/
@[simp] theorem readBytes_writeBytes (m : Memory) (a : Nat) (d : Bytes) : (m.writeBytes a d).readBytes life a d.length = d := by
  apply List.ext_getElem (by simp)
  intro i h1 h2
  rw [getElem_readBytes, read_writeBytes_inside _ _ _ _ h2]

/-! ### The canonical form -/

theorem wfFrom_set (m : Memory) (lo a : Nat) (v : Byte) (h : wfFrom lo m = true) (h1 : lo ≤ a)
    (h2 : a < Config.windowSize) : wfFrom lo (m.set a v) = true := by
  induction m generalizing lo with
  | nil => simp [Memory.set, wfFrom, h1, h2]
  | cons c rest ih =>
    obtain ⟨k, w⟩ := c
    simp only [wfFrom, Bool.and_eq_true, decide_eq_true_eq] at h
    obtain ⟨⟨hk1, hk2⟩, hr⟩ := h
    simp only [Memory.set]
    split_ifs with h3 h4
    · simp only [wfFrom, Bool.and_eq_true, decide_eq_true_eq]
      exact ⟨⟨h1, h2⟩, ⟨h3, hk2⟩, hr⟩
    · subst h4
      simp only [wfFrom, Bool.and_eq_true, decide_eq_true_eq]
      exact ⟨⟨h1, h2⟩, hr⟩
    · simp only [wfFrom, Bool.and_eq_true, decide_eq_true_eq]
      exact ⟨⟨hk1, hk2⟩, ih (k + 1) hr (by omega)⟩

/-- A byte stored in a buffer keeps the canonical form. -/
theorem wf_set (m : Memory) (a : Nat) (v : Byte) (h : m.wf = true) (h1 : Config.dbufBase ≤ a)
    (h2 : a < Config.windowSize) : wf (m.set a v) = true := wfFrom_set m _ a v h h1 h2

/-- A string stored in the buffers keeps the canonical form. -/
theorem wf_writeBytes (m : Memory) (a : Nat) (d : Bytes) (h : m.wf = true) (h1 : Config.dbufBase ≤ a)
    (h2 : a + d.length ≤ Config.windowSize) : wf (m.writeBytes a d) = true := by
  induction d generalizing m a with
  | nil => exact h
  | cons x xs ih =>
    simp only [List.length_cons] at h2
    exact ih (m.set a x) (a + 1) (wf_set m a x h h1 (by omega)) (by omega) (by omega)

theorem wfFrom_mono (m : Memory) (lo lo' : Nat) (h : wfFrom lo m = true) (h1 : lo' ≤ lo) : wfFrom lo' m = true := by
  cases m with
  | nil => rfl
  | cons c rest =>
    obtain ⟨k, w⟩ := c
    simp only [wfFrom, Bool.and_eq_true, decide_eq_true_eq] at h ⊢
    exact ⟨⟨by omega, h.1.2⟩, h.2⟩

/-- In canonical form nothing is listed below the bound. -/
theorem get?_below (m : Memory) (lo a : Nat) (h : wfFrom lo m = true) (ha : a < lo) : m.get? a = none := by
  cases m with
  | nil => rfl
  | cons c rest =>
    obtain ⟨k, w⟩ := c
    simp only [wfFrom, Bool.and_eq_true, decide_eq_true_eq] at h
    rw [Memory.get?, if_pos (by omega)]

theorem ext_from (m m' : Memory) (lo : Nat) (h : wfFrom lo m = true) (h' : wfFrom lo m' = true)
    (he : ∀ a, m.get? a = m'.get? a) : m = m' := by
  induction m generalizing lo m' with
  | nil =>
    cases m' with
    | nil => rfl
    | cons c _ =>
      obtain ⟨k, w⟩ := c
      have := he k
      simp [Memory.get?] at this
  | cons c rest ih =>
    obtain ⟨k, w⟩ := c
    simp only [wfFrom, Bool.and_eq_true, decide_eq_true_eq] at h
    cases m' with
    | nil =>
      have := he k
      simp [Memory.get?] at this
    | cons c' rest' =>
      obtain ⟨k', w'⟩ := c'
      simp only [wfFrom, Bool.and_eq_true, decide_eq_true_eq] at h'
      have hk : k = k' := by
        have e1 := he k
        have e2 := he k'
        rcases Nat.lt_trichotomy k k' with hlt | heq | hgt
        · simp [Memory.get?, hlt] at e1
        · exact heq
        · simp [Memory.get?, hgt] at e2
      subst hk
      have hw : w = w' := by
        have := he k
        simpa [Memory.get?] using this
      subst hw
      rw [ih rest' (k + 1) h.2 h'.2 fun a => ?_]
      have := he a
      by_cases h1 : a < k + 1
      · rw [get?_below rest _ _ h.2 h1, get?_below rest' _ _ h'.2 h1]
      · simpa [Memory.get?, show ¬ a < k by omega, show a ≠ k by omega] using this

/-- Two memories in canonical form that hold the same bytes are the same list. -/
theorem ext (m m' : Memory) (h : m.wf = true) (h' : m'.wf = true) (he : ∀ a, m.get? a = m'.get? a) : m = m' :=
  ext_from m m' _ h h' he

end Memory

/-! ### The buffers of State -/

section
variable (s : State) (i n : Nat) (d : Bytes)

@[simp] theorem State.length_dbuf : (s.dbuf i n).length = n := Memory.length_readBytes _ _ _
@[simp] theorem State.length_fbuf : (s.fbuf i n).length = n := Memory.length_readBytes _ _ _

theorem State.dbuf_writeDbuf : (s.writeDbuf i d).dbuf i d.length = d := Memory.readBytes_writeBytes _ _ _
theorem State.fbuf_writeFbuf : (s.writeFbuf i d).fbuf i d.length = d := Memory.readBytes_writeBytes _ _ _

theorem State.fbuf_add (k : Nat) : s.fbuf i (n + k) = s.fbuf i n ++ s.fbuf (i + n) k := by
  simp only [State.fbuf, Memory.readBytes_add, Nat.add_assoc]

theorem State.dbuf_add (k : Nat) : s.dbuf i (n + k) = s.dbuf i n ++ s.dbuf (i + n) k := by
  simp only [State.dbuf, Memory.readBytes_add, Nat.add_assoc]

theorem State.getElem_fbuf (j : Nat) (h : j < (s.fbuf i n).length) : (s.fbuf i n)[j] = s.fbufByte (i + j) := by
  simp [State.fbuf, State.fbufByte, State.byte, Memory.getElem_readBytes, Nat.add_assoc]

theorem State.getElem_dbuf (j : Nat) (h : j < (s.dbuf i n).length) : (s.dbuf i n)[j] = s.dbufByte (i + j) := by
  simp [State.dbuf, State.dbufByte, State.byte, Memory.getElem_readBytes, Nat.add_assoc]

/-- A byte of the buffers outside the DBUF span stored. -/
theorem State.byte_writeDbuf_outside (a : Nat) (h : a < Config.dbufBase + i ∨ Config.dbufBase + i + d.length ≤ a) :
    (s.writeDbuf i d).byte a = s.byte a := Memory.read_writeBytes_outside _ _ _ _ h

/-- A byte of the buffers outside the FBUF span stored. -/
theorem State.byte_writeFbuf_outside (a : Nat) (h : a < Config.fbufBase + i ∨ Config.fbufBase + i + d.length ≤ a) :
    (s.writeFbuf i d).byte a = s.byte a := Memory.read_writeBytes_outside _ _ _ _ h

end

end Sys2Proof.Machine
end

