-- ==== Sys2Proof/Laws/Exec.lean ====
section
/-! SUPPORT. What each shared operation and each branching meaning can answer, said once: later proofs cite these and unfold no
meaning. -/

namespace Sys2Proof.Machine

/-! ### The operands' bounds -/

theorem dataOutOfRange_iff (s : State) : s.dataOutOfRange = true ↔ 1024 < s.dlen.toNat := by
  unfold State.dataOutOfRange Config.dbufSize
  exact decide_eq_true_iff

theorem spanOutOfRange_iff (s : State) : s.spanOutOfRange = true ↔ 2048 < s.opoff.toNat + s.oplen.toNat := by
  unfold State.spanOutOfRange Config.fbufSize
  exact decide_eq_true_iff

/-! ### Ending an instruction -/

@[simp] theorem finish_eq_next {s t : State} : finish s = .next t ↔ t = s.complete 0x00 := by
  simp [finish, eq_comm]

@[simp] theorem raiseError_eq_next {e : ErrCode} {s t : State} : raiseError e s = .next t ↔ t = s.complete e.toByte := by
  simp [raiseError, eq_comm]

@[simp] theorem raiseMatchError_eq_next {e : ErrCode} {s t : State} :
    raiseMatchError e s = .next t ↔ t = (s.setMatched false).complete e.toByte := by
  simp [raiseMatchError, raiseError, eq_comm]

/-- What an instruction can end as: a success of some state, or an error of some state. -/
inductive Ends (o : Host.Outcome State Fault Refusal) : Prop where
  | success (u : State) (h : o = finish u)
  | failure (e : ErrCode) (u : State) (h : o = raiseError e u)

theorem Ends.of_matchError (e : ErrCode) (s : State) : Ends (raiseMatchError e s) := .failure e (s.setMatched false) rfl

/-- Whatever an instruction ends as, the machine goes on. -/
theorem Ends.next {o : Host.Outcome State Fault Refusal} (h : Ends o) :
    ∃ (u : State) (c : Byte), o = .next (u.complete c) ∧ c ≤ 0x0C := by
  cases h with
  | success u h => exact ⟨u, 0x00, h, by decide⟩
  | failure e u h => exact ⟨u, e.toByte, h, e.toByte_le⟩

/-! ### The checksum unit -/

theorem execCrc16_cases {s t : State} (h : execCrc16 s = .next t) :
    (s.spanOutOfRange = true ∧ t = s.complete ErrCode.range.toByte) ∨
    (s.spanOutOfRange = false ∧ t = State.complete { s with fcs := crc16 s.span } 0x00) := by
  unfold execCrc16 at h
  split at h <;> simp_all

theorem execCksum8_cases {s t : State} (h : execCksum8 s = .next t) :
    (s.spanOutOfRange = true ∧ t = s.complete ErrCode.range.toByte) ∨
    (s.spanOutOfRange = false ∧ t = State.complete { s with fcs := (cks8 s.span).setWidth 16 } 0x00) := by
  unfold execCksum8 at h
  split at h <;> simp_all

theorem execVcrc16_cases {s t : State} (h : execVcrc16 s = .next t) :
    (∃ e : ErrCode, t = (s.setMatched false).complete e.toByte ∧
      (e = .range ∧ s.spanOutOfRange = true ∨ s.spanOutOfRange = false ∧ (e = .length ∨ e = .checksum))) ∨
    (s.spanOutOfRange = false ∧ 2 ≤ s.oplen.toNat ∧ ∃ c, c = crc16 (s.fbuf s.opoff.toNat (s.oplen.toNat - 2)) ∧
      s.fbufByte (s.opoff.toNat + s.oplen.toNat - 2) = loByte c ∧
      s.fbufByte (s.opoff.toNat + s.oplen.toNat - 1) = hiByte c ∧
      t = State.complete ({ s with fcs := c }.setMatched true) 0x00) := by
  unfold execVcrc16 at h
  dsimp only at h
  split at h
  · exact .inl ⟨_, raiseMatchError_eq_next.1 h, .inl ⟨rfl, ‹_›⟩⟩
  · split at h
    · exact .inl ⟨_, raiseMatchError_eq_next.1 h, .inr ⟨by simp_all, .inl rfl⟩⟩
    · split at h
      · exact .inl ⟨_, raiseMatchError_eq_next.1 h, .inr ⟨by simp_all, .inr rfl⟩⟩
      · rename_i h1 h2 h3
        simp only [not_or, not_not] at h3
        exact .inr ⟨by simp_all, by omega, _, rfl, h3.1, h3.2, finish_eq_next.1 h⟩

theorem execVcksum8_cases {s t : State} (h : execVcksum8 s = .next t) :
    (∃ e : ErrCode, t = (s.setMatched false).complete e.toByte ∧
      (e = .range ∧ s.spanOutOfRange = true ∨ s.spanOutOfRange = false ∧ (e = .length ∨ e = .checksum))) ∨
    (s.spanOutOfRange = false ∧ 1 ≤ s.oplen.toNat ∧ ∃ c, c = cks8 (s.fbuf s.opoff.toNat (s.oplen.toNat - 1)) ∧
      s.fbufByte (s.opoff.toNat + s.oplen.toNat - 1) = c ∧
      t = State.complete ({ s with fcs := c.setWidth 16 }.setMatched true) 0x00) := by
  unfold execVcksum8 at h
  dsimp only at h
  split at h
  · exact .inl ⟨_, raiseMatchError_eq_next.1 h, .inl ⟨rfl, ‹_›⟩⟩
  · split at h
    · exact .inl ⟨_, raiseMatchError_eq_next.1 h, .inr ⟨by simp_all, .inl rfl⟩⟩
    · split at h
      · exact .inl ⟨_, raiseMatchError_eq_next.1 h, .inr ⟨by simp_all, .inr rfl⟩⟩
      · rename_i h1 h2 h3
        exact .inr ⟨by simp_all, by omega, _, rfl, not_not.1 h3, finish_eq_next.1 h⟩

/-! ### Padding -/

theorem execPad_cases {s t : State} (h : execPad s = .next t) :
    (1023 < s.dlen.toNat ∧ t = s.complete ErrCode.range.toByte) ∨
    (s.dlen.toNat ≤ 1023 ∧ t = State.complete { s.writeDbuf s.dlen.toNat (padTail s.dlen.toNat) with
      dlen := BitVec.ofNat 16 (paddedLen s.dlen.toNat) } 0x00) := by
  unfold execPad at h
  dsimp only at h
  split at h
  · rename_i h1
    rw [dataOutOfRange_iff] at h1
    exact .inl ⟨by omega, raiseError_eq_next.1 h⟩
  · split at h
    · rename_i h1 h2
      simp only [paddedLen, Config.dbufSize] at h2
      exact .inl ⟨by omega, raiseError_eq_next.1 h⟩
    · rename_i h1 h2
      simp only [paddedLen, Config.dbufSize] at h2
      exact .inr ⟨by omega, finish_eq_next.1 h⟩

theorem execUnpad_cases {s t : State} (h : execUnpad s = .next t) :
    (s.dataOutOfRange = true ∧ t = s.complete ErrCode.range.toByte) ∨
    (s.dataOutOfRange = false ∧ scanMark s.data s.dlen.toNat = none ∧ t = s.complete ErrCode.nopadmark.toByte) ∨
    (s.dataOutOfRange = false ∧ ∃ i, scanMark s.data s.dlen.toNat = some i ∧
      t = State.complete { s with dlen := BitVec.ofNat 16 i } 0x00) := by
  unfold execUnpad at h
  split at h
  · simp_all
  · split at h <;> simp_all

/-! ### The Security Context -/

theorem execVccrypt_cases {s t : State} (h : execVccrypt s = .next t) :
    (s.blk ≠ s.ccrypt ∧ t = (s.setMatched false).complete ErrCode.cryptmismatch.toByte) ∨
    (s.blk = s.ccrypt ∧ t = (s.setMatched true).complete 0x00) := by
  unfold execVccrypt at h
  split at h <;> simp_all

theorem execVscrypt_cases {s t : State} (h : execVscrypt s = .next t) :
    (s.blk ≠ s.scrypt ∧ t = (s.setMatched false).complete ErrCode.cryptmismatch.toByte) ∨
    (s.blk = s.scrypt ∧
      t = (({ s with rmac := s.initialRmac }.setEstablished true).setMatched true).complete 0x00) := by
  unfold execVscrypt at h
  split at h <;> simp_all

/-! ### MAC and CBC -/

theorem macSpan_cases {d : Dir} {s t : State} (h : macSpan d s = .next t) :
    (s.spanOutOfRange = true ∧ t = s.complete ErrCode.range.toByte) ∨
    (s.spanOutOfRange = false ∧ s.established = false ∧ t = s.complete ErrCode.notest.toByte) ∨
    (s.spanOutOfRange = false ∧ s.established = true ∧
      t = (s.setAccumulator d (s.dirMac d s.span)).complete 0x00) := by
  unfold macSpan at h
  split at h
  · simp_all
  · split at h <;> simp_all

theorem cipherData_cases {f : Bytes → Bytes} {s t : State} (h : cipherData f s = .next t) :
    (∃ e : ErrCode, t = s.complete e.toByte ∧ (e = .range ∧ s.dataOutOfRange = true ∨
      s.dataOutOfRange = false ∧ e = .notest ∧ s.established = false ∨
      s.dataOutOfRange = false ∧ e = .notaligned ∧ s.established = true ∧ s.dlen.toNat % 16 ≠ 0)) ∨
    (s.dataOutOfRange = false ∧ s.established = true ∧ s.dlen.toNat = 0 ∧ t = s.complete 0x00) ∨
    (s.dataOutOfRange = false ∧ s.established = true ∧ 0 < s.dlen.toNat ∧ s.dlen.toNat % 16 = 0 ∧
      t = (s.writeDbuf 0 (f s.data)).complete 0x00) := by
  unfold cipherData at h
  split at h
  · exact .inl ⟨_, raiseError_eq_next.1 h, .inl ⟨rfl, ‹_›⟩⟩
  · rename_i h1
    have h1 : s.dataOutOfRange = false := by simpa using h1
    split at h
    · exact .inl ⟨_, raiseError_eq_next.1 h, .inr (.inl ⟨h1, rfl, ‹_›⟩)⟩
    · rename_i h2
      have h2 : s.established = true := by simpa using h2
      split at h
      · exact .inr (.inl ⟨h1, h2, ‹_›, finish_eq_next.1 h⟩)
      · split at h
        · exact .inl ⟨_, raiseError_eq_next.1 h, .inr (.inr ⟨h1, rfl, h2, ‹_›⟩)⟩
        · exact .inr (.inr ⟨h1, h2, by omega, by omega, finish_eq_next.1 h⟩)

theorem macSpan_ends (d : Dir) (s : State) : Ends (macSpan d s) := by
  unfold macSpan
  split
  · exact .failure _ _ rfl
  · split
    exacts [.failure _ _ rfl, .success _ rfl]

theorem cipherData_ends (f : Bytes → Bytes) (s : State) : Ends (cipherData f s) := by
  unfold cipherData
  split
  · exact .failure _ _ rfl
  · split
    · exact .failure _ _ rfl
    · split
      · exact .success _ rfl
      · split
        exacts [.failure _ _ rfl, .success _ rfl]

/-! ### The framer -/

theorem execBuild_cases {s t : State} (h : execBuild s = .next t) :
    (∃ e, s.buildError s.scs s.scblen = some e ∧ t = s.complete e.toByte) ∨
    (s.buildError s.scs s.scblen = none ∧ t = (s.withFrame s.scs s.scblen).complete 0x00) := by
  unfold execBuild at h
  split at h <;> simp_all

theorem execBuilda_cases {s t : State} (h : execBuilda s = .next t) :
    (∃ e, s.buildError s.autoScs s.autoScblen = some e ∧ t = s.complete e.toByte) ∨
    (s.buildError s.autoScs s.autoScblen = none ∧
      t = State.complete { s.withFrame s.autoScs s.autoScblen with scs := s.autoScs, scblen := s.autoScblen } 0x00) := by
  unfold execBuilda at h
  split at h <;> simp_all

theorem execParse_cases {s t : State} (h : execParse s = .next t) :
    (∃ e, s.parseLayout = .error e ∧ t = (s.setMatched false).complete e.toByte) ∨
    (∃ y, s.parseLayout = .ok y ∧ s.macGood y = false ∧
      t = ((s.withParsed y).setMatched false).complete ErrCode.macmismatch.toByte) ∨
    (∃ y, s.parseLayout = .ok y ∧ s.macGood y = true ∧ t = ((s.withParsed y).setMatched true).complete 0x00) := by
  unfold execParse at h
  split at h
  · exact .inl ⟨_, ‹_›, raiseMatchError_eq_next.1 h⟩
  · split at h
    · exact .inr (.inr ⟨_, ‹_›, ‹_›, finish_eq_next.1 h⟩)
    · exact .inr (.inl ⟨_, ‹_›, by simp_all, raiseMatchError_eq_next.1 h⟩)

/-- The checks of `build_frame` that passed. -/
theorem buildError_none {s : State} {scs scblen : Byte} (h : s.buildError scs scblen = none) :
    s.dlen.toNat ≤ 1024 ∧ (scs = 0x00 ∨ scsValid scs = true ∧ scbLenValid scblen = true) ∧
      (scsHasMac scs = true → s.established = true) ∧ s.frameLen scs scblen ≤ 2048 := by
  unfold State.buildError at h
  split at h
  · simp at h
  · rename_i h1
    split at h
    · simp at h
    · rename_i h2
      split at h
      · simp at h
      · rename_i h3
        split at h
        · simp at h
        · rename_i h4
          rw [dataOutOfRange_iff] at h1
          unfold Config.fbufSize at h4
          refine ⟨by omega, ?_, ?_, by omega⟩
          · by_cases hz : scs = 0x00
            · exact .inl hz
            · cases hv : scsValid scs <;> cases hl : scbLenValid scblen <;> simp_all
          · intro hm
            cases he : s.established <;> simp_all

/-- Every instruction ends as a success or as an error (40_control.md R111; 60_exceptions.md R284). -/
theorem exec_ends (i : Instr) (s : State) : Ends (exec i s) := by
  cases i
  case nop => exact .success _ rfl
  case sreset => exact .success _ rfl
  case crc16 => simp only [exec, execCrc16]; split; exacts [.failure _ _ rfl, .success _ rfl]
  case cksum8 => simp only [exec, execCksum8]; split; exacts [.failure _ _ rfl, .success _ rfl]
  case vcrc16 =>
    simp only [exec, execVcrc16]
    split
    · exact .of_matchError _ _
    · split
      · exact .of_matchError _ _
      · split
        exacts [.of_matchError _ _, .success _ rfl]
  case vcksum8 =>
    simp only [exec, execVcksum8]
    split
    · exact .of_matchError _ _
    · split
      · exact .of_matchError _ _
      · split
        exacts [.of_matchError _ _, .success _ rfl]
  case aeseKey => exact .success _ rfl
  case aeseEnc => exact .success _ rfl
  case aeseMac1 => exact .success _ rfl
  case aeseMac2 => exact .success _ rfl
  case aesdKey => exact .success _ rfl
  case aesdEnc => exact .success _ rfl
  case aesdMac1 => exact .success _ rfl
  case aesdMac2 => exact .success _ rfl
  case pad =>
    simp only [exec, execPad]
    split
    · exact .failure _ _ rfl
    · split
      exacts [.failure _ _ rfl, .success _ rfl]
  case unpad =>
    simp only [exec, execUnpad]
    split
    · exact .failure _ _ rfl
    · split
      exacts [.failure _ _ rfl, .success _ rfl]
  case screset => exact .success _ rfl
  case derive => exact .success _ rfl
  case crypt => exact .success _ rfl
  case vccrypt => simp only [exec, execVccrypt]; split; exacts [.of_matchError _ _, .success _ rfl]
  case vscrypt => simp only [exec, execVscrypt]; split; exacts [.of_matchError _ _, .success _ rfl]
  case adoptrmac => exact .success _ rfl
  case macc => exact macSpan_ends _ _
  case macr => exact macSpan_ends _ _
  case encc => exact cipherData_ends _ _
  case encr => exact cipherData_ends _ _
  case decc => exact cipherData_ends _ _
  case decr => exact cipherData_ends _ _
  case build => simp only [exec, execBuild]; split; exacts [.failure _ _ rfl, .success _ rfl]
  case builda => simp only [exec, execBuilda]; split; exacts [.failure _ _ rfl, .success _ rfl]
  case parse =>
    simp only [exec, execParse]
    split
    · exact .of_matchError _ _
    · split
      exacts [.success _ rfl, .of_matchError _ _]

end Sys2Proof.Machine
end

