-- ==== Sys2Proof/Laws/PerInstr.lean ====
section
/-! SUPPORT. What is true of each instruction as syntax, one lemma a constructor. -/

/-- The opcode byte of the instruction has a format's form (30_encoding.md R81), and the decoder reads the instruction back from
it, as a byte and as a word of the opcode table. -/
def Sys2Proof.Laws.EncodingRoundTrip.Statement (i : Sys2Proof.Instr) : Prop :=
  Sys2Proof.opcodeWellFormed (Sys2Proof.opcode i) = true ∧ Sys2Proof.decodeByte (Sys2Proof.opcode i) = some i ∧
    Sys2Proof.decodeTableWord 8 (Sys2Proof.opcode i).toNat = some i

theorem Sys2Proof.Laws.EncodingRoundTrip.nop : Sys2Proof.Laws.EncodingRoundTrip.Statement .nop := by
  refine ⟨?_, ?_, ?_⟩ <;> decide
theorem Sys2Proof.Laws.EncodingRoundTrip.sreset : Sys2Proof.Laws.EncodingRoundTrip.Statement .sreset := by
  refine ⟨?_, ?_, ?_⟩ <;> decide
theorem Sys2Proof.Laws.EncodingRoundTrip.crc16 : Sys2Proof.Laws.EncodingRoundTrip.Statement .crc16 := by
  refine ⟨?_, ?_, ?_⟩ <;> decide
theorem Sys2Proof.Laws.EncodingRoundTrip.cksum8 : Sys2Proof.Laws.EncodingRoundTrip.Statement .cksum8 := by
  refine ⟨?_, ?_, ?_⟩ <;> decide
theorem Sys2Proof.Laws.EncodingRoundTrip.vcrc16 : Sys2Proof.Laws.EncodingRoundTrip.Statement .vcrc16 := by
  refine ⟨?_, ?_, ?_⟩ <;> decide
theorem Sys2Proof.Laws.EncodingRoundTrip.vcksum8 : Sys2Proof.Laws.EncodingRoundTrip.Statement .vcksum8 := by
  refine ⟨?_, ?_, ?_⟩ <;> decide
theorem Sys2Proof.Laws.EncodingRoundTrip.aeseKey : Sys2Proof.Laws.EncodingRoundTrip.Statement .aeseKey := by
  refine ⟨?_, ?_, ?_⟩ <;> decide
theorem Sys2Proof.Laws.EncodingRoundTrip.aeseEnc : Sys2Proof.Laws.EncodingRoundTrip.Statement .aeseEnc := by
  refine ⟨?_, ?_, ?_⟩ <;> decide
theorem Sys2Proof.Laws.EncodingRoundTrip.aeseMac1 : Sys2Proof.Laws.EncodingRoundTrip.Statement .aeseMac1 := by
  refine ⟨?_, ?_, ?_⟩ <;> decide
theorem Sys2Proof.Laws.EncodingRoundTrip.aeseMac2 : Sys2Proof.Laws.EncodingRoundTrip.Statement .aeseMac2 := by
  refine ⟨?_, ?_, ?_⟩ <;> decide
theorem Sys2Proof.Laws.EncodingRoundTrip.aesdKey : Sys2Proof.Laws.EncodingRoundTrip.Statement .aesdKey := by
  refine ⟨?_, ?_, ?_⟩ <;> decide
theorem Sys2Proof.Laws.EncodingRoundTrip.aesdEnc : Sys2Proof.Laws.EncodingRoundTrip.Statement .aesdEnc := by
  refine ⟨?_, ?_, ?_⟩ <;> decide
theorem Sys2Proof.Laws.EncodingRoundTrip.aesdMac1 : Sys2Proof.Laws.EncodingRoundTrip.Statement .aesdMac1 := by
  refine ⟨?_, ?_, ?_⟩ <;> decide
theorem Sys2Proof.Laws.EncodingRoundTrip.aesdMac2 : Sys2Proof.Laws.EncodingRoundTrip.Statement .aesdMac2 := by
  refine ⟨?_, ?_, ?_⟩ <;> decide
theorem Sys2Proof.Laws.EncodingRoundTrip.pad : Sys2Proof.Laws.EncodingRoundTrip.Statement .pad := by
  refine ⟨?_, ?_, ?_⟩ <;> decide
theorem Sys2Proof.Laws.EncodingRoundTrip.unpad : Sys2Proof.Laws.EncodingRoundTrip.Statement .unpad := by
  refine ⟨?_, ?_, ?_⟩ <;> decide
theorem Sys2Proof.Laws.EncodingRoundTrip.screset : Sys2Proof.Laws.EncodingRoundTrip.Statement .screset := by
  refine ⟨?_, ?_, ?_⟩ <;> decide
theorem Sys2Proof.Laws.EncodingRoundTrip.derive : Sys2Proof.Laws.EncodingRoundTrip.Statement .derive := by
  refine ⟨?_, ?_, ?_⟩ <;> decide
theorem Sys2Proof.Laws.EncodingRoundTrip.crypt : Sys2Proof.Laws.EncodingRoundTrip.Statement .crypt := by
  refine ⟨?_, ?_, ?_⟩ <;> decide
theorem Sys2Proof.Laws.EncodingRoundTrip.vccrypt : Sys2Proof.Laws.EncodingRoundTrip.Statement .vccrypt := by
  refine ⟨?_, ?_, ?_⟩ <;> decide
theorem Sys2Proof.Laws.EncodingRoundTrip.vscrypt : Sys2Proof.Laws.EncodingRoundTrip.Statement .vscrypt := by
  refine ⟨?_, ?_, ?_⟩ <;> decide
theorem Sys2Proof.Laws.EncodingRoundTrip.adoptrmac : Sys2Proof.Laws.EncodingRoundTrip.Statement .adoptrmac := by
  refine ⟨?_, ?_, ?_⟩ <;> decide
theorem Sys2Proof.Laws.EncodingRoundTrip.macc : Sys2Proof.Laws.EncodingRoundTrip.Statement .macc := by
  refine ⟨?_, ?_, ?_⟩ <;> decide
theorem Sys2Proof.Laws.EncodingRoundTrip.macr : Sys2Proof.Laws.EncodingRoundTrip.Statement .macr := by
  refine ⟨?_, ?_, ?_⟩ <;> decide
theorem Sys2Proof.Laws.EncodingRoundTrip.encc : Sys2Proof.Laws.EncodingRoundTrip.Statement .encc := by
  refine ⟨?_, ?_, ?_⟩ <;> decide
theorem Sys2Proof.Laws.EncodingRoundTrip.encr : Sys2Proof.Laws.EncodingRoundTrip.Statement .encr := by
  refine ⟨?_, ?_, ?_⟩ <;> decide
theorem Sys2Proof.Laws.EncodingRoundTrip.decc : Sys2Proof.Laws.EncodingRoundTrip.Statement .decc := by
  refine ⟨?_, ?_, ?_⟩ <;> decide
theorem Sys2Proof.Laws.EncodingRoundTrip.decr : Sys2Proof.Laws.EncodingRoundTrip.Statement .decr := by
  refine ⟨?_, ?_, ?_⟩ <;> decide
theorem Sys2Proof.Laws.EncodingRoundTrip.build : Sys2Proof.Laws.EncodingRoundTrip.Statement .build := by
  refine ⟨?_, ?_, ?_⟩ <;> decide
theorem Sys2Proof.Laws.EncodingRoundTrip.builda : Sys2Proof.Laws.EncodingRoundTrip.Statement .builda := by
  refine ⟨?_, ?_, ?_⟩ <;> decide
theorem Sys2Proof.Laws.EncodingRoundTrip.parse : Sys2Proof.Laws.EncodingRoundTrip.Statement .parse := by
  refine ⟨?_, ?_, ?_⟩ <;> decide
end

