-- ==== Sys2Proof/Laws/Window.lean ====
section
/-! SUPPORT. What a turn of the host and a step can do, said once; the canonical form of the buffers under every access. -/

namespace Sys2Proof.Machine

/-! ### The map -/

theorem locate_buffer (off : Nat) (h : 0x400 ≤ off) : locate off = .buffer := by
  unfold locate
  rw [if_pos (by exact h)]

theorem locate_opc : locate 0x000 = .reg .opc 0 .issue := rfl

theorem locate_status : locate 0x002 = .reg .status 0 .w1c := rfl

/-- A location outside the map's rows holds a register only below 0x400. -/
theorem lt_of_locate_reg {off i : Nat} {r : Reg} {a : Access} (h : locate off = .reg r i a) : off < 0x400 := by
  by_contra hc
  rw [locate_buffer off (by omega)] at h
  cases h

/-! ### A write -/

/-- What an idle write can do. -/
theorem idleWrite_cases (s : State) (off : Nat) (v : Byte) :
    s.idleWrite off v = s.issue v ∨ s.idleWrite off v = s.acknowledge v ∨
    (∃ r i, locate off = .reg r i .rw ∧ s.idleWrite off v = s.setRegByte r i v) ∨
    (∃ r i, locate off = .reg r i .wo ∧ s.idleWrite off v = s.setRegByte r i v) ∨
    s.idleWrite off v = s ∨
    (locate off = .buffer ∧ s.idleWrite off v = { s with mem := s.mem.set off v }) := by
  unfold State.idleWrite
  split
  · exact .inl rfl
  · exact .inr (.inl rfl)
  · exact .inr (.inr (.inl ⟨_, _, ‹_›, rfl⟩))
  · exact .inr (.inr (.inr (.inl ⟨_, _, ‹_›, rfl⟩)))
  · exact .inr (.inr (.inr (.inr (.inl rfl))))
  · exact .inr (.inr (.inr (.inr (.inr ⟨‹_›, rfl⟩))))
  · exact .inr (.inr (.inr (.inr (.inl rfl))))

/-- A register byte written leaves the buffers, STATUS, ERRCODE and everything that is no register alone. -/
theorem setRegByte_keeps (s : State) (r : Reg) (i : Nat) (v : Byte) :
    (s.setRegByte r i v).mem = s.mem ∧ (s.setRegByte r i v).status = s.status ∧
    (s.setRegByte r i v).errcode = s.errcode ∧ (s.setRegByte r i v).opc = s.opc ∧ (s.setRegByte r i v).wait = s.wait ∧
    (s.setRegByte r i v).rng = s.rng ∧ (s.setRegByte r i v).busyReads = s.busyReads ∧
    (s.setRegByte r i v).latencies = s.latencies ∧ (s.setRegByte r i v).host = s.host ∧
    (s.setRegByte r i v).answers = s.answers := by
  cases r <;> exact ⟨rfl, rfl, rfl, rfl, rfl, rfl, rfl, rfl, rfl, rfl⟩

/-- Every host write keeps the buffers' canonical form. -/
theorem wf_hostWrite (s : State) (off : Nat) (v : Byte) (h : s.mem.wf = true) (ho : off < Config.windowSize) :
    (s.hostWrite off v).mem.wf = true := by
  unfold State.hostWrite
  split
  · exact h
  · obtain h' | h' | ⟨r, i, _, h'⟩ | ⟨r, i, _, h'⟩ | h' | ⟨hl, h'⟩ := idleWrite_cases s off v <;> rw [h']
    · exact h
    · exact h
    · rw [(setRegByte_keeps s r i v).1]; exact h
    · rw [(setRegByte_keeps s r i v).1]; exact h
    · exact h
    · refine Memory.wf_set _ _ _ h ?_ ho
      unfold locate at hl
      split at hl
      · assumption
      · split at hl <;> cases hl

/-! ### Turns -/

/-- What a turn of the host can do, when it stops at nothing. -/
theorem hostStep_cases {s t : State} (h : hostStep s = .next t) :
    (s.host = [] ∧ t = s) ∨
    (∃ off rest, s.host = .rd off :: rest ∧ off < Config.windowSize ∧ t = State.answerRead { s with host := rest } off) ∨
    (∃ off v rest, s.host = .wr off v :: rest ∧ off < Config.windowSize ∧
      t = State.hostWrite { s with host := rest } off v) := by
  unfold hostStep at h
  split at h
  · rename_i hh
    exact .inl ⟨hh, by cases h; rfl⟩
  · rename_i a rest hh
    split at h
    · rename_i hw
      cases a with
      | rd off => exact .inr (.inl ⟨off, rest, hh, by simpa [HostAccess.wellFormed] using hw, by cases h; rfl⟩)
      | wr off v => exact .inr (.inr ⟨off, v, rest, hh, by simpa [HostAccess.wellFormed] using hw, by cases h; rfl⟩)
    · cases a <;> cases h

/-- The turn of the host goes on when its next access, if any, is inside the window. -/
theorem hostStep_next (s : State) (h : ∀ a rest, s.host = a :: rest → a.wellFormed = true) : ∃ t, hostStep s = .next t := by
  unfold hostStep
  split
  · exact ⟨_, rfl⟩
  · rename_i a rest hh
    rw [if_pos (h a rest hh)]
    exact ⟨_, rfl⟩

theorem step_of_due {s : State} (h : s.completionDue = true) : step s = engineStep s := by
  unfold step
  rw [if_pos h]

theorem step_of_not_due {s : State} (h : s.completionDue = false) : step s = hostStep s.tick := by
  unfold step
  rw [if_neg (by simp [h])]

/-- The engine's turn: the instruction that the latched opcode is, or ILLEGAL. -/
theorem engineStep_cases (s : State) :
    (∃ i, decodeByte s.opc = some i ∧ engineStep s = exec i s) ∨
    (decodeByte s.opc = none ∧ engineStep s = raiseError .illegal s) := by
  unfold engineStep completeBytes State.inFlight decode
  cases h : decodeByte s.opc with
  | none => exact .inr ⟨rfl, by simp only [h, completeIllegal]⟩
  | some i => exact .inl ⟨i, rfl, by simp only [h]⟩

/-- Cases of a step that stops at nothing: a completion, or a turn of the host. -/
theorem step_cases {s t : State} (h : step s = .next t) :
    (s.completionDue = true ∧ ∃ i, decodeByte s.opc = some i ∧ exec i s = .next t) ∨
    (s.completionDue = true ∧ decodeByte s.opc = none ∧ t = s.complete ErrCode.illegal.toByte) ∨
    (s.completionDue = false ∧ hostStep s.tick = .next t) := by
  cases hd : s.completionDue with
  | true =>
    rw [step_of_due hd] at h
    obtain ⟨i, hi, he⟩ | ⟨hn, he⟩ := engineStep_cases s
    · exact .inl ⟨rfl, i, hi, he ▸ h⟩
    · exact .inr (.inl ⟨rfl, hn, raiseError_eq_next.1 (he ▸ h)⟩)
  | false => exact .inr (.inr ⟨rfl, step_of_not_due hd ▸ h⟩)

end Sys2Proof.Machine
end

