-- ==== Sys2Proof/Tests/Slice0.lean ====
section
/-! SUPPORT. Tests of the model and witnesses of the statements' hypotheses. Every expected value is taken from the spec: from
95_test_vectors.md unless the test's comment names another file. -/

namespace Sys2Proof.Tests

open Sys2Proof Sys2Proof.Machine

set_option maxRecDepth 20000

/-! ### Helpers -/

/-- The state an instruction leaves (the reset state where it stops, which no instruction does). -/
def after (i : Instr) (s : State) : State :=
  match exec i s with
  | .next t => t
  | _ => .reset

/-- The state a step leaves. -/
def stepped (s : State) : State :=
  match step s with
  | .next t => t
  | _ => .reset

/-- FBUF holds `f`, FLEN and OPLEN are its length, and OPOFF is 0. -/
def onF (f : Bytes) : State :=
  { State.reset.writeFbuf 0 f with flen := BitVec.ofNat 16 f.length, oplen := BitVec.ofNat 16 f.length }

/-- DBUF holds `d`, and DLEN is its length. -/
def onD (d : Bytes) : State := { State.reset.writeDbuf 0 d with dlen := BitVec.ofNat 16 d.length }

/-- The same state with ESTABLISHED = 1. -/
def est (s : State) : State := s.setEstablished true

/-- A state whose OPOFF and OPLEN are given. -/
def spanAt (o n : Nat) : State := { State.reset with opoff := BitVec.ofNat 16 o, oplen := BitVec.ofNat 16 n }

/-- A state whose DLEN is given. -/
def withLen (n : Nat) : State := { State.reset with dlen := BitVec.ofNat 16 n }

def blk (d : Bytes) : Block := Block.ofBytes d

def vKeyC1 : Block := blk [0x00, 0x01, 0x02, 0x03, 0x04, 0x05, 0x06, 0x07, 0x08, 0x09, 0x0A, 0x0B, 0x0C, 0x0D, 0x0E, 0x0F]
def vPlainC1 : Block := blk [0x00, 0x11, 0x22, 0x33, 0x44, 0x55, 0x66, 0x77, 0x88, 0x99, 0xAA, 0xBB, 0xCC, 0xDD, 0xEE, 0xFF]
def vCipherC1 : Block := blk [0x69, 0xC4, 0xE0, 0xD8, 0x6A, 0x7B, 0x04, 0x30, 0xD8, 0xCD, 0xB7, 0x80, 0x70, 0xB4, 0xC5, 0x5A]
def vZeroE : Block := blk [0x66, 0xE9, 0x4B, 0xD4, 0xEF, 0x8A, 0x2C, 0x3B, 0x88, 0x4C, 0xFA, 0x59, 0xCA, 0x34, 0x2B, 0x2E]
def vZeroD : Block := blk [0x14, 0x0F, 0x0F, 0x10, 0x11, 0xB5, 0x22, 0x3D, 0x79, 0x58, 0x77, 0x17, 0xFF, 0xD9, 0xEC, 0x3A]
def vEnc : Block := blk [0xAA, 0x6B, 0x7A, 0xBE, 0x6F, 0x33, 0x4D, 0xB9, 0x7D, 0xFA, 0xDD, 0x34, 0x89, 0xE3, 0xC7, 0x6A]
def vSm1 : Block := blk [0xDE, 0xFF, 0x1E, 0xB0, 0x5C, 0xC9, 0x40, 0xF1, 0xB9, 0x07, 0xBD, 0x07, 0x83, 0x25, 0x9E, 0x12]
def vSm2 : Block := blk [0x4E, 0x39, 0x35, 0x7F, 0xBF, 0x0F, 0xCA, 0x81, 0x76, 0xD9, 0xE5, 0x71, 0x56, 0x3A, 0x56, 0xA2]
def vCc : Block := blk [0xE0, 0xBB, 0xEF, 0x5E, 0x8F, 0x7B, 0x56, 0x2A, 0xF7, 0xC0, 0xFE, 0x04, 0x39, 0xDA, 0xF9, 0x51]
def vSc : Block := blk [0x50, 0x09, 0xA1, 0xBC, 0xD7, 0x2E, 0xB6, 0xFD, 0xBF, 0x6E, 0xA0, 0x96, 0x38, 0x67, 0x50, 0xCB]
def vRmi : Block := blk [0x50, 0x08, 0x2A, 0x57, 0xF1, 0x1A, 0xBA, 0x6D, 0xDC, 0x35, 0x49, 0xFC, 0x9D, 0x91, 0x1C, 0xBF]
def vRa : Rnd := ⟨⟨0xA0, 0xA1, 0xA2, 0xA3⟩, ⟨0xA4, 0xA5, 0xA6, 0xA7⟩⟩
def vRb : Rnd := ⟨⟨0xB0, 0xB1, 0xB2, 0xB3⟩, ⟨0xB4, 0xB5, 0xB6, 0xB7⟩⟩
/-- §2.6: the MAC of the zero-key secure Poll. -/
def vPollMac : Block := blk [0x28, 0x42, 0xAF, 0x9F, 0xB5, 0x49, 0x23, 0x12, 0x78, 0x07, 0x74, 0x7E, 0xFB, 0xEE, 0x2A, 0x80]
/-- §2.6: 01 02 03 padded. -/
def vPadded : Bytes := [0x01, 0x02, 0x03, 0x80, 0, 0, 0, 0, 0, 0, 0, 0, 0, 0, 0, 0]
def vEncc : Bytes := [0x91, 0x40, 0x7D, 0x56, 0x1D, 0x01, 0x0A, 0xBE, 0xD1, 0x2C, 0x0A, 0x0C, 0x4D, 0x73, 0x1A, 0x60]
def vEncr : Bytes := [0x1D, 0x5E, 0x7D, 0x7B, 0xA3, 0x5E, 0xF1, 0x1F, 0x4A, 0x71, 0x4A, 0x7B, 0x94, 0x7E, 0x1C, 0x44]

/-! ### WellFormed smoke: an ill-formed term for each check -/

-- R81, R83: one byte for each format and group that has a bit or a value that must not be, and one for the groups without a format.
theorem test_illFormed_n0 : opcodeWellFormed 0x02 = false := by decide
theorem test_illFormed_c : opcodeWellFormed 0x14 = false := by decide
theorem test_illFormed_a : opcodeWellFormed 0x28 = false := by decide
theorem test_illFormed_n3 : opcodeWellFormed 0x32 = false := by decide
theorem test_illFormed_n4 : opcodeWellFormed 0x46 = false := by decide
theorem test_illFormed_m : opcodeWellFormed 0x52 = false := by decide
theorem test_illFormed_x : opcodeWellFormed 0x64 = false := by decide
theorem test_illFormed_b : opcodeWellFormed 0x72 = false := by decide
theorem test_illFormed_n8 : opcodeWellFormed 0x81 = false := by decide
theorem test_illFormed_noGroup : opcodeWellFormed 0x90 = false ∧ opcodeWellFormed 0xFF = false := by decide
-- 20_memory.md R61: the first offset past the window.
theorem test_illFormed_rd : (HostAccess.rd 0x1000).wellFormed = false := by decide
theorem test_illFormed_wr : (HostAccess.wr 0x1000 0x00).wellFormed = false := by decide

/-! ### Decoding: each opcode written bit by bit from 30_encoding.md R81 to R84 -/

theorem test_decode_control : decode [0b00000000] = .ok (.nop, []) ∧ decode [0b00000001] = .ok (.sreset, []) := by decide
-- Format C: V in bit 1, A in bit 0.
theorem test_decode_check : decode [0b00010000] = .ok (.crc16, []) ∧ decode [0b00010001] = .ok (.cksum8, []) ∧
    decode [0b00010010] = .ok (.vcrc16, []) ∧ decode [0b00010011] = .ok (.vcksum8, []) := by decide
-- Format A: D in bit 2, K in bits 1:0.
theorem test_decode_aese : decode [0b00100000] = .ok (.aeseKey, []) ∧ decode [0b00100001] = .ok (.aeseEnc, []) ∧
    decode [0b00100010] = .ok (.aeseMac1, []) ∧ decode [0b00100011] = .ok (.aeseMac2, []) := by decide
theorem test_decode_aesd : decode [0b00100100] = .ok (.aesdKey, []) ∧ decode [0b00100101] = .ok (.aesdEnc, []) ∧
    decode [0b00100110] = .ok (.aesdMac1, []) ∧ decode [0b00100111] = .ok (.aesdMac2, []) := by decide
theorem test_decode_padding : decode [0b00110000] = .ok (.pad, []) ∧ decode [0b00110001] = .ok (.unpad, []) := by decide
theorem test_decode_context : decode [0b01000000] = .ok (.screset, []) ∧ decode [0b01000001] = .ok (.derive, []) ∧
    decode [0b01000010] = .ok (.crypt, []) ∧ decode [0b01000011] = .ok (.vccrypt, []) ∧
    decode [0b01000100] = .ok (.vscrypt, []) ∧ decode [0b01000101] = .ok (.adoptrmac, []) := by decide
-- Format M: R in bit 0. Format X: X in bit 1, R in bit 0. Format B: U in bit 0.
theorem test_decode_mac : decode [0b01010000] = .ok (.macc, []) ∧ decode [0b01010001] = .ok (.macr, []) := by decide
theorem test_decode_cbc : decode [0b01100000] = .ok (.encc, []) ∧ decode [0b01100001] = .ok (.encr, []) ∧
    decode [0b01100010] = .ok (.decc, []) ∧ decode [0b01100011] = .ok (.decr, []) := by decide
theorem test_decode_framer : decode [0b01110000] = .ok (.build, []) ∧ decode [0b01110001] = .ok (.builda, []) ∧
    decode [0b10000000] = .ok (.parse, []) := by decide
theorem test_decode_refuses : decode [0x14] = .error (.undefinedOpcode 0x14) ∧ decode [] = .error .noByte ∧
    decodeTableWord 8 0xFF = none := by decide

/-! ### Control (§2.1) -/

theorem test_nop : (after .nop { State.reset with status := 0x06, errcode := 0x09 }).status = 0x06 ∧
    (after .nop { State.reset with status := 0x06, errcode := 0x09 }).errcode = 0x00 := by decide
theorem test_sreset : after .sreset { State.reset with status := 0x7C, ctrl := 0x07, key := vKeyC1, opc := 0x01, dlen := 9 } =
    { State.reset with status := 0x02, opc := 0x01 } := by decide
theorem test_undefined_opcode : (stepped (State.reset.withFetchWord 8 0xFF)).status = 0x06 ∧
    (stepped (State.reset.withFetchWord 8 0xFF)).errcode = 0x01 := by decide

/-! ### CRC-16 and checksum (§2.2) -/

theorem test_crc16 : (after .crc16 (onF [0x53, 0x00, 0x08, 0x00, 0x04, 0x60])).fcs = 0xAAEB := by decide
theorem test_crc16_empty_at_end : (after .crc16 (spanAt 2048 0)).fcs = 0x1D0F := by decide
theorem test_cksum8 : (after .cksum8 (onF [0x53, 0x00, 0x07, 0x00, 0x00, 0x60])).fcs = 0x0046 := by decide
theorem test_cksum8_wraps : (after .cksum8 (onF [0xFF, 0xFF])).fcs = 0x0002 := by decide
theorem test_vcrc16 : (after .vcrc16 (onF [0x53, 0x80, 0x08, 0x00, 0x05, 0x40, 0x68, 0x9F])).status = 0x22 ∧
    (after .vcrc16 (onF [0x53, 0x80, 0x08, 0x00, 0x05, 0x40, 0x68, 0x9F])).fcs = 0x9F68 := by decide
-- §2.8: MATCH from an earlier check falls, and the CRC bytes in the other order are refused.
theorem test_vcrc16_swapped :
    (after .vcrc16 { onF [0x53, 0x80, 0x08, 0x00, 0x05, 0x40, 0x9F, 0x68] with status := 0x22 }).status = 0x06 ∧
    (after .vcrc16 { onF [0x53, 0x80, 0x08, 0x00, 0x05, 0x40, 0x9F, 0x68] with status := 0x22 }).errcode = 0x0A := by decide
theorem test_vcksum8 : (after .vcksum8 (onF [0x53, 0x07, 0x00, 0x00, 0x00, 0x60, 0x46])).matched = true ∧
    (after .vcksum8 (onF [0x53, 0x07, 0x00, 0x00, 0x00, 0x60, 0x46])).fcs = 0x0046 := by decide
theorem test_vcksum8_wrong : (after .vcksum8 (onF [0x53, 0x00, 0x07, 0x00, 0x00, 0x60, 0x47])).errcode = 0x0A ∧
    (after .vcksum8 (onF [])).errcode = 0x09 := by decide

/-! ### Padding (§2.3) -/

theorem test_pad : (after .pad (onD [0x01, 0x02, 0x03])).dbuf 0 16 = vPadded ∧
    (after .pad (onD [0x01, 0x02, 0x03])).dlen = 16 := by decide
theorem test_pad_limits : (after .pad (withLen 1023)).dlen = 1024 ∧ (after .pad (withLen 1023)).dbufByte 1023 = 0x80 ∧
    (after .pad (withLen 1024)).errcode = 0x02 ∧ (after .pad (withLen 1024)).dlen = 1024 := by decide
theorem test_unpad : (after .unpad (onD [0x01, 0x80, 0x80, 0x00])).dlen = 2 ∧ (after .unpad (onD [0x80])).dlen = 0 := by decide
theorem test_unpad_no_mark : (after .unpad (onD [0x01, 0x02, 0x03])).errcode = 0x05 ∧
    (after .unpad (onD [])).errcode = 0x05 := by decide

/-! ### AES-128 (§2.4) -/

theorem test_aeseKey : (after .aeseKey { State.reset with key := vKeyC1, blk := vPlainC1 }).blk = vCipherC1 := by decide
theorem test_aeseEnc : (after .aeseEnc { State.reset with key := vKeyC1 }).blk = vZeroE := by decide
theorem test_aeseMac1 : (after .aeseMac1 { State.reset with sMac1 := vKeyC1, blk := vPlainC1 }).blk = vCipherC1 := by decide
theorem test_aeseMac2 : (after .aeseMac2 { State.reset with sMac2 := vKeyC1, blk := vPlainC1 }).blk = vCipherC1 := by decide
theorem test_aesdKey : (after .aesdKey { State.reset with key := vKeyC1, blk := vCipherC1 }).blk = vPlainC1 := by decide
theorem test_aesdEnc : (after .aesdEnc { State.reset with sEnc := vKeyC1, blk := vCipherC1 }).blk = vPlainC1 := by decide
theorem test_aesdMac1 : (after .aesdMac1 { State.reset with sMac2 := vKeyC1 }).blk = vZeroD := by decide
theorem test_aesdMac2 : (after .aesdMac2 { State.reset with sMac2 := vKeyC1, blk := vCipherC1 }).blk = vPlainC1 := by decide
-- 43_aes.md R158: FIPS-197's key schedule example, w[4] and w[43].
theorem test_key_schedule :
    (roundKey (blk [0x2B, 0x7E, 0x15, 0x16, 0x28, 0xAE, 0xD2, 0xA6, 0xAB, 0xF7, 0x15, 0x88, 0x09, 0xCF, 0x4F, 0x3C]) 1).q0 =
      ⟨0xA0, 0xFA, 0xFE, 0x17⟩ ∧
    (roundKey (blk [0x2B, 0x7E, 0x15, 0x16, 0x28, 0xAE, 0xD2, 0xA6, 0xAB, 0xF7, 0x15, 0x88, 0x09, 0xCF, 0x4F, 0x3C]) 10).q3 =
      ⟨0xB6, 0x63, 0x0C, 0xA6⟩ := by decide

/-! ### Security Context (§2.5) -/

-- The draw itself is free: only what the spec fixes is tested.
theorem test_screset_initiator :
    (after .screset (est { State.reset with key := Config.defaultKey, rndB := vRb, rmac := vRmi })).defkey = true ∧
    (after .screset (est { State.reset with key := Config.defaultKey, rndB := vRb, rmac := vRmi })).established = false ∧
    (after .screset (est { State.reset with key := Config.defaultKey, rndB := vRb, rmac := vRmi })).rndB = vRb ∧
    (after .screset (est { State.reset with key := Config.defaultKey, rndB := vRb, rmac := vRmi })).rmac = Block.zero := by decide
theorem test_screset_responder : (after .screset { State.reset with ctrl := 0x03, rndA := vRa }).rndA = vRa ∧
    (after .screset { State.reset with ctrl := 0x03, rndA := vRa }).defkey = false := by decide
theorem test_derive : (after .derive { State.reset with key := Config.defaultKey, rndA := vRa }).sEnc = vEnc := by decide
theorem test_derive_macs : (after .derive { State.reset with key := Config.defaultKey, rndA := vRa }).sMac1 = vSm1 ∧
    (after .derive { State.reset with key := Config.defaultKey, rndA := vRa }).sMac2 = vSm2 := by decide
theorem test_crypt : (after .crypt { State.reset with sEnc := vEnc, rndA := vRa, rndB := vRb }).ccrypt = vCc ∧
    (after .crypt { State.reset with sEnc := vEnc, rndA := vRa, rndB := vRb }).scrypt = vSc := by decide
theorem test_vccrypt : (after .vccrypt { State.reset with blk := vCc, ccrypt := vCc }).status = 0x22 := by decide
theorem test_vccrypt_differs :
    (after .vccrypt { State.reset with blk := vCc.set 0xE1 0, ccrypt := vCc, status := 0x20 }).status = 0x06 ∧
    (after .vccrypt { State.reset with blk := vCc.set 0x50 15, ccrypt := vCc }).errcode = 0x0B := by decide
theorem test_vscrypt :
    (after .vscrypt { State.reset with blk := vSc, scrypt := vSc, sMac1 := vSm1, sMac2 := vSm2 }).rmac = vRmi ∧
    (after .vscrypt { State.reset with blk := vSc, scrypt := vSc, sMac1 := vSm1, sMac2 := vSm2 }).status = 0x32 := by decide
theorem test_vscrypt_differs : (after .vscrypt { State.reset with blk := vCc, scrypt := vSc, rmac := vRmi }).rmac = vRmi ∧
    (after .vscrypt { State.reset with blk := vCc, scrypt := vSc, rmac := vRmi }).status = 0x06 := by decide
theorem test_adoptrmac : (after .adoptrmac { State.reset with blk := vRmi }).rmac = vRmi ∧
    (after .adoptrmac { State.reset with blk := vRmi }).established = true := by decide

/-! ### MAC and CBC (§2.6) -/

def pollSpan : State := est (onF [0x53, 0x00, 0x0E, 0x00, 0x0C, 0x02, 0x15, 0x60])

theorem test_macc : (after .macc pollSpan).cmac = vPollMac ∧ (after .macc pollSpan).rmac = Block.zero := by decide
theorem test_macc_errors : (after .macc (spanAt 2040 9)).errcode = 0x02 ∧ (after .macc (spanAt 2040 8)).errcode = 0x03 := by
  decide
theorem test_macr : (after .macr { pollSpan with cmac := vPollMac }).rmac =
    blk [0xB0, 0x84, 0x80, 0x20, 0xFB, 0x5B, 0x40, 0xBD, 0xA4, 0xED, 0xF2, 0x70, 0x92, 0xF4, 0xB0, 0xD2] := by decide
theorem test_mac_pad_aligned : macWith true vSm1 vSm2 vKeyC1.toBytes .zero =
    blk [0x4E, 0x61, 0xDE, 0x2E, 0xB8, 0x2C, 0x98, 0xB0, 0x68, 0x05, 0x92, 0x0D, 0x66, 0x37, 0x64, 0xD7] := by decide
theorem test_mac_aligned : macWith false vSm1 vSm2 vKeyC1.toBytes .zero =
    blk [0xA7, 0xC2, 0x0D, 0x0D, 0xC1, 0x34, 0x8F, 0x6E, 0x30, 0xEE, 0xF7, 0xB3, 0x68, 0xDF, 0x26, 0x4F] := by decide
theorem test_mac_two_blocks : macWith false vSm1 vSm2 (vKeyC1.toBytes ++ [0x10]) .zero =
    blk [0x6A, 0xEC, 0x66, 0x6A, 0x98, 0x56, 0x9A, 0x70, 0xB0, 0x09, 0xA3, 0xD1, 0x62, 0x20, 0x0D, 0xB1] := by decide
theorem test_encc : (after .encc { est (onD vPadded) with sEnc := vEnc }).dbuf 0 16 = vEncc := by decide
theorem test_encc_errors : (after .encc (est (withLen 15))).errcode = 0x04 ∧ (after .encc (withLen 15)).errcode = 0x03 ∧
    (after .encc (est (withLen 0))).errcode = 0x00 := by decide
theorem test_encr : (after .encr { est (onD vPadded) with sEnc := vEnc, rmac := vRmi }).dbuf 0 16 = vEncr := by decide
theorem test_decc : (after .decc { est (onD vEncc) with sEnc := vEnc }).dbuf 0 16 = vPadded := by decide
theorem test_decr : (after .decr { est (onD vEncr) with sEnc := vEnc, rmac := vRmi }).dbuf 0 16 = vPadded := by decide
theorem test_decr_range : (after .decr (withLen 1040)).errcode = 0x02 := by decide

/-! ### Framer (§2.7) -/

def pollDefaults : State := { State.reset with code := 0x60 }
def securePoll : Bytes := [0x53, 0x00, 0x0E, 0x00, 0x0C, 0x02, 0x15, 0x60, 0x28, 0x42, 0xAF, 0x9F, 0x4A, 0xF0]
def docSecurePoll : Bytes := [0x53, 0x00, 0x0A, 0x00, 0x0C, 0x02, 0x15, 0x60, 0x58, 0xD5]

theorem test_build_poll :
    (after .build pollDefaults).fbuf 0 8 = [0x53, 0x00, 0x08, 0x00, 0x04, 0x60, 0xEB, 0xAA] ∧
    (after .build pollDefaults).flen = 8 := by decide
theorem test_build_secure : (after .build (est { pollDefaults with scs := 0x15 })).fbuf 0 14 = securePoll ∧
    (after .build (est { pollDefaults with scs := 0x15 })).cmac = vPollMac := by decide
theorem test_builda : (after .builda (est pollDefaults)).fbuf 0 14 = securePoll ∧
    (after .builda (est pollDefaults)).scs = 0x15 := by decide
theorem test_builda_plain : (after .builda { pollDefaults with scs := 0x33 }).scs = 0x00 ∧
    (after .builda { pollDefaults with scs := 0x33 }).flen = 8 := by decide
theorem test_parse_handshake :
    (after .parse (onF [0x53, 0x05, 0x13, 0x00, 0x0C, 0x03, 0x11, 0x00, 0x76, 0xA0, 0xA1, 0xA2, 0xA3, 0xA4, 0xA5, 0xA6, 0xA7,
      0x33, 0x47])).dbuf 0 8 = vRa.toBytes := by decide
-- 70_reset_and_hazards.md R319 gives this frame; its data decrypts under the receiver's accumulator as it was before the frame.
theorem test_parse_decrypts :
    (after .parse { est (onF ([0x53, 0x05, 0x1E, 0x00, 0x0D, 0x02, 0x17, 0x6A] ++ vEncc ++ [0x37, 0x88, 0xD6, 0xAA, 0x73, 0x49]))
      with sEnc := vEnc, sMac1 := vSm1, sMac2 := vSm2 }).dbuf 0 16 = vPadded := by decide

/-! ### The window (§2.1, §2.8) -/

theorem test_write_while_busy :
    (stepped { State.reset with status := 0x01, wait := 1, host := [.wr 0x004 0x55] }).addr = 0x00 ∧
    (stepped { State.reset with status := 0x01, wait := 1, host := [.wr 0x004 0x55] }).status = 0x09 := by decide
theorem test_clear_ovr_while_busy :
    (stepped { State.reset with status := 0x09, wait := 1, host := [.wr 0x002 0x08] }).status = 0x01 := by decide
-- 10_state.md R25: an idle write of all ones to STATUS clears DONE, ERR and OVR only.
theorem test_status_write_keeps : (stepped { State.reset with status := 0x7E, host := [.wr 0x002 0xFF] }).status = 0x70 := by decide
-- 10_state.md R22: offsets of single registers, read back after a state that holds a different byte in each.
theorem test_register_offsets :
    [0x003, 0x004, 0x005, 0x006, 0x007, 0x008, 0x009, 0x00A].map (State.hostRead
      { State.reset with errcode := 1, addr := 2, seq := 3, code := 4, scs := 5, scblen := 6, scbdata := 7, rxctrl := 8 }) =
      [1, 2, 3, 4, 5, 6, 7, 8] := by decide
theorem test_ack_err : (stepped { State.reset with status := 0x06, host := [.wr 0x002 0x04] }).status = 0x02 := by decide
theorem test_key_reads_zero : (State.reset.hostWrite 0x040 0x77).hostRead 0x040 = 0x00 := by decide
theorem test_fetch_word : (stepped (State.reset.withFetchWord 8 0x45)).established = true := by decide

/-! ### Witnesses: states and operands that meet the hypotheses of the statements, at the edges of their ranges -/

theorem witness_DecodeAndEncodeAgree : decode [0x80, 0x01] = .ok (.parse, [0x01]) := by decide
theorem witness_PowerOnResetValues_life : State.reset = State.powerOn 0 ∧ State.powerOn 7 = State.powerOn 7 := ⟨rfl, rfl⟩
theorem witness_PowerOnResetValues : (0x400 ≤ 0x400 ∧ 0x400 < 0x1000) ∧ (0x400 ≤ 0xFFF ∧ 0xFFF < 0x1000) := by decide
-- An issue takes its wait from the front of `latencies`.
theorem witness_IdleOpcWriteIssues_latency :
    (stepped { State.reset with latencies := [4, 0], host := [.wr 0x000 0x00] }).wait = 4 ∧
    (stepped { State.reset with latencies := [4, 0], host := [.wr 0x000 0x00] }).latencies = [0] := by decide
theorem witness_IdleOpcWriteIssues : State.reset.busy = false ∧
    State.host { State.reset with host := [.wr 0x000 0x80] } = .wr 0x000 0x80 :: [] := by decide
theorem witness_StepRuns_completes : (State.reset.withFetchWord 8 0x80).busy = true ∧
    (State.reset.withFetchWord 8 0x80).wait = 0 ∧ decode (State.reset.withFetchWord 8 0x80).inFlight = .ok (.parse, []) := by
  decide
theorem witness_StepRuns_waits : State.busy { State.reset with status := 0x01, wait := 1 } = true ∧
    State.wait { State.reset with status := 0x01, wait := 1 } ≠ 0 ∧ State.reset.busy = false := by decide
theorem witness_UndefinedOpcode : (State.reset.withFetchWord 8 0x02).busy = true ∧
    (State.reset.withFetchWord 8 0x02).wait = 0 ∧ opcodeWellFormed (State.reset.withFetchWord 8 0x02).opc = false := by decide
theorem witness_BusyBlock : State.busy { State.reset with status := 0x01, wait := 3, host := [.rd 0xFFF] } = true ∧
    ∀ a ∈ State.host { State.reset with status := 0x01, wait := 3, host := [.rd 0xFFF] }, a.wellFormed = true := by decide
theorem witness_Errors_range : exec .pad (withLen 1024) = .next (after .pad (withLen 1024)) ∧
    (after .pad (withLen 1024)).errcode ≠ 0x00 := ⟨rfl, by decide⟩

/-- A frame in an established session whose MAC is wrong (§2.7). -/
def wrongMac : State :=
  est (onF [0x53, 0x00, 0x0E, 0x00, 0x0C, 0x02, 0x15, 0x60, 0xD7, 0x42, 0xAF, 0x9F, 0xE9, 0xBB])

theorem witness_Errors_macmismatch : (after .parse wrongMac).errcode = 0x0C ∧ (after .parse wrongMac).code = 0x60 ∧
    (after .parse wrongMac).cmac = vPollMac ∧ (after .parse wrongMac).matched = false := by decide
theorem witness_Errors_macmismatch_next : exec .parse wrongMac = .next (after .parse wrongMac) := rfl
theorem witness_Established_set : State.reset.established = false ∧ (after .adoptrmac .reset).established = true := by decide
theorem witness_Established_cleared : (est .reset).established = true ∧ (after .screset (est .reset)).established = false := by
  decide
theorem witness_BufferWrites : (after .pad (withLen 15)).dlen.toNat ≤ 16 ∧ 16 < 1024 ∧
    (after .pad (withLen 1023)).dlen.toNat = 1024 := by decide
theorem witness_Irq : State.reset.busy = false ∧ (0x02 : Byte).getLsbD 1 = true ∧ (0x0C : Byte).getLsbD 1 = false := by decide
theorem witness_Span_bounds : (spanAt 2040 8).opoff.toNat + (spanAt 2040 8).oplen.toNat ≤ 2048 ∧
    2048 < (spanAt 2040 9).opoff.toNat + (spanAt 2040 9).oplen.toNat := by decide
theorem witness_Vcrc16_short : (spanAt 2047 1).opoff.toNat + (spanAt 2047 1).oplen.toNat ≤ 2048 ∧
    (spanAt 2047 1).oplen.toNat < 2 ∧ (spanAt 2048 0).oplen.toNat < 1 := by decide
theorem witness_Vcrc16_accepted : (onF [0x0F, 0x1D]).fbuf 0 2 = [] ++ [loByte (crc16 []), hiByte (crc16 [])] ∧
    (onF [0x0F, 0x1D]).oplen.toNat = 2 ∧ (onF [0x0F, 0x1D]).opoff.toNat = 0 := by decide
theorem witness_Vcrc16_refused : ∀ body : Bytes,
    (onF [0x0F, 0x1E]).fbuf 0 2 ≠ body ++ [loByte (crc16 body), hiByte (crc16 body)] := by
  intro body h
  have hl : body.length = 0 := by simpa using (congrArg List.length h).symm
  obtain rfl := List.length_eq_zero_iff.1 hl
  exact absurd h (by decide)
theorem witness_Vcksum8 : (((onF [0x00]).fbuf 0 1).map BitVec.toNat).sum % 256 = 0 ∧ (onF [0x00]).oplen.toNat = 1 ∧
    (((onF [0x01]).fbuf 0 1).map BitVec.toNat).sum % 256 ≠ 0 := by decide
theorem witness_OneByteChanges : exec .vcrc16 (onF [0x0F, 0x1D]) = .next (after .vcrc16 (onF [0x0F, 0x1D])) ∧
    exec .vcksum8 (onF [0x00]) = .next (after .vcksum8 (onF [0x00])) := ⟨rfl, rfl⟩
theorem witness_OneByteChanges_operands : (after .vcrc16 (onF [0x0F, 0x1D])).errcode = 0x00 ∧
    1 < (onF [0x0F, 0x1D]).oplen.toNat ∧ (0x1C : Byte) ≠ (onF [0x0F, 0x1D]).fbufByte (0 + 1) ∧
    (after .vcksum8 (onF [0x00])).errcode = 0x00 ∧ (0x01 : Byte) ≠ (onF [0x00]).fbufByte (0 + 0) := by decide
theorem witness_Pad : (withLen 1023).dlen.toNat ≤ 1023 ∧ 1023 < (withLen 1024).dlen.toNat := by decide
theorem witness_Unpad : 1024 < (withLen 1025).dlen.toNat ∧
    (onD [0x01, 0x80, 0x80, 0x00]).dbuf 0 4 = [0x01, 0x80] ++ 0x80 :: List.replicate 1 0x00 ∧
    (onD [0x80]).dbuf 0 1 = [] ++ 0x80 :: List.replicate 0 0x00 := by decide
theorem witness_Unpad_no_mark : ∀ (d : Bytes) (z : Nat), State.reset.dbuf 0 0 ≠ d ++ 0x80 :: List.replicate z 0x00 := by
  intro d z h
  simpa using congrArg List.length h
theorem witness_Vccrypt : (∀ i, i < 16 → State.reset.blk.get i = State.reset.ccrypt.get i) ∧
    State.reset.blk.get 15 ≠ (State.ccrypt { State.reset with ccrypt := Block.zero.set 1 15 }).get 15 := by decide
theorem witness_Vscrypt : (∀ i, i < 16 → State.reset.blk.get i = State.reset.scrypt.get i) ∧
    State.reset.blk.get 0 ≠ (State.scrypt { State.reset with scrypt := Block.zero.set 1 0 }).get 0 := by decide
theorem witness_Handshake : State.key (est .reset) = State.reset.key ∧ (est .reset).rndA = State.reset.rndA ∧
    (est .reset).rndB = State.reset.rndB ∧ (est .reset).cmac = State.reset.cmac := by decide
theorem witness_MacChains : (List.replicate 15 (0 : Byte)).length < 16 ∧ (List.replicate 16 (0 : Byte)).length = 16 ∧
    16 < (List.replicate 17 (0 : Byte)).length := by decide
theorem witness_Cbc : ([] : Bytes).length % 16 = 0 ∧ vPadded.length % 16 = 0 := by decide
theorem witness_Macc : (spanAt 2040 8).established = false ∧ (est (spanAt 2040 8)).established = true ∧
    (est (spanAt 2040 8)).opoff.toNat + (est (spanAt 2040 8)).oplen.toNat ≤ 2048 := by decide
theorem witness_DataCipher : 1024 < (withLen 1025).dlen.toNat ∧ (withLen 1024).dlen.toNat ≤ 1024 ∧
    (est (withLen 1024)).established = true ∧ (est (withLen 1024)).dlen.toNat % 16 = 0 ∧
    (est (withLen 1023)).dlen.toNat % 16 ≠ 0 ∧ (withLen 1024).established = false := by decide
theorem witness_EqualMacStates : (∀ i ∈ [Instr.macc, .macr], i = .macc ∨ i = .macr) ∧
    pollSpan.fbuf 0 8 = State.fbuf { pollSpan with addr := 9 } 0 8 ∧ pollSpan.opoff.toNat = 0 ∧ pollSpan.oplen.toNat = 8 := by
  decide
theorem witness_Build_errors : 1024 < (withLen 1025).dlen.toNat ∧
    scsValid 0x19 = false ∧ (0x19 : Byte) ≠ 0 ∧ scsHasMac 0x15 = true ∧ State.reset.established = false ∧
    State.reset.scblen = 2 := by decide
theorem witness_Build_succeeds : (withLen 1024).dlen.toNat ≤ 1024 ∧ State.reset.scs = 0 ∧ scsHasMac State.reset.scs = false ∧
    scsValid 0x18 = true ∧ (est { State.reset with scs := 0x18, scblen := 3 }).established = true := by decide
theorem witness_Builda : (withLen 1024).dlen.toNat ≤ 1024 ∧ 1024 < (withLen 1025).dlen.toNat := by decide
/-- A receiver whose FBUF holds the encrypted frame of 70_reset_and_hazards.md R319. -/
def receiver : State :=
  { est (onF ([0x53, 0x05, 0x1E, 0x00, 0x0D, 0x02, 0x17, 0x6A] ++ vEncc ++ [0x37, 0x88, 0xD6, 0xAA, 0x73, 0x49]))
    with sEnc := vEnc, sMac1 := vSm1, sMac2 := vSm2 }

-- Address 0x05, control 0x0D, block 02 17, code 0x6A, one block of data, MAC 37 88 D6 AA.
theorem witness_ParseAccepts_encrypted :
    (0x0D : Byte).getLsbD 3 = true ∧ scsValid 0x17 = true ∧ scsHasMac 0x17 = true ∧ vEncc.length ≤ 1024 ∧
    vEncc.length % 16 = 0 ∧ receiver.established = true ∧
    [0x37, 0x88, 0xD6, 0xAA] =
      (receiver.mac (wireBody (wireLength 0x0D (wireScb 2 0x17 0) vEncc [0x37, 0x88, 0xD6, 0xAA]) 0x05 0x0D
        (wireScb 2 0x17 0) 0x6A vEncc) (receiver.accumulator (scsDir 0x17).other)).toBytes.take 4 ∧
    HoldsFrame receiver (wireFrame 0x05 0x0D (wireScb 2 0x17 0) 0x6A vEncc [0x37, 0x88, 0xD6, 0xAA]) := by
  unfold HoldsFrame
  decide
-- The source's Ack: no security block, and the boundary of no data.
theorem witness_ParseAccepts_plain : (0x05 : Byte).getLsbD 3 = false ∧ scsHasMac 0x00 = false ∧ scsEncrypts 0x00 = false ∧
    HoldsFrame (onF [0x53, 0x80, 0x08, 0x00, 0x05, 0x40, 0x68, 0x9F]) (wireFrame 0x80 0x05 [] 0x40 [] []) := by
  unfold HoldsFrame
  decide
theorem witness_ParseMacMismatch : (0x0C : Byte).getLsbD 3 = true ∧ scsHasMac 0x15 = true ∧ wrongMac.established = true ∧
    [0xD7, 0x42, 0xAF, 0x9F] ≠
      (wrongMac.mac (wireBody (wireLength 0x0C (wireScb 2 0x15 0) [] [0xD7, 0x42, 0xAF, 0x9F]) 0x00 0x0C
        (wireScb 2 0x15 0) 0x60 []) (wrongMac.accumulator (scsDir 0x15).other)).toBytes.take 4 ∧
    HoldsFrame wrongMac (wireFrame 0x00 0x0C (wireScb 2 0x15 0) 0x60 [] [0xD7, 0x42, 0xAF, 0x9F]) := by
  unfold HoldsFrame
  decide
-- One state for each place in the order of checks: the code PARSE reports is the first that fails (§2.7).
theorem witness_ParseFirst_early : (after .parse { State.reset with flen := 2049 }).errcode = 0x02 ∧
    (after .parse { State.reset with flen := 0 }).errcode = 0x09 ∧
    (after .parse (onF [0x54, 0x00, 0x08, 0x00, 0x04, 0x60, 0xEB, 0xAA])).errcode = 0x08 ∧
    (after .parse (onF [0x53, 0x00, 0x08, 0x00])).errcode = 0x09 ∧
    (after .parse (onF [0x53, 0x00, 0x06, 0x00, 0x04, 0x60])).errcode = 0x09 ∧
    (after .parse (onF [0x53, 0x00, 0x08, 0x00, 0x04, 0x60, 0xEB, 0xAB])).errcode = 0x0A := by decide
theorem witness_ParseFirst_late : (after .parse (onF [0x53, 0x00, 0x0A, 0x00, 0x0C, 0x02, 0x19, 0x60, 0x35, 0x90])).errcode = 0x06 ∧
    (after .parse (onF [0x53, 0x00, 0x09, 0x00, 0x0C, 0x03, 0x11, 0x39, 0xA0])).errcode = 0x09 ∧
    (after .parse (onF securePoll)).errcode = 0x03 ∧
    (after .parse (est (onF [0x53, 0x00, 0x13, 0x00, 0x0C, 0x02, 0x17, 0x60, 0, 0, 0, 0, 0, 0, 0, 0, 0, 0x67, 0x76]))).errcode =
      0x04 := by decide
theorem witness_SecurePoll : (onF docSecurePoll).flen = 10 ∧ (onF docSecurePoll).fbuf 0 10 = docSecurePoll := by decide
theorem witness_RoundTrip : exec .builda (est pollDefaults) = .next (after .builda (est pollDefaults)) := rfl
theorem witness_RoundTrip_operands : (after .builda (est pollDefaults)).errcode = 0x00 ∧
    (after .builda (est pollDefaults)).flen = (est (onF securePoll)).flen ∧
    (est (onF securePoll)).fbuf 0 14 = (after .builda (est pollDefaults)).fbuf 0 14 ∧
    (est (onF securePoll)).established = (est pollDefaults).established ∧ (est (onF securePoll)).sEnc = (est pollDefaults).sEnc ∧
    (est (onF securePoll)).sMac1 = (est pollDefaults).sMac1 ∧ (est (onF securePoll)).sMac2 = (est pollDefaults).sMac2 ∧
    (est (onF securePoll)).cmac = (est pollDefaults).cmac ∧ (est (onF securePoll)).rmac = (est pollDefaults).rmac := by decide

/-- The source's Ack (V2): the shortest frame with a CRC. -/
def ack : State := onF [0x53, 0x80, 0x08, 0x00, 0x05, 0x40, 0x68, 0x9F]

-- A frame of the minimum length; its last byte, and its control byte with bit 3 kept and with bit 3 changed, are three clauses.
theorem witness_OneByteInFrame : ack.flen.toNat ≤ 2048 ∧ ack.fbufByte 0 = 0x53 ∧
    (ack.fbufByte 2).toNat + 256 * (ack.fbufByte 3).toNat = 8 ∧ 8 ≤ ack.flen.toNat ∧ 6 + 2 + 0 ≤ 8 ∧
    (ack.fbufByte 4).getLsbD 2 = true ∧ (ack.fbufByte 4).getLsbD 3 = false ∧
    ack.fbuf (8 - 2) 2 = wireFcs true (ack.fbuf 0 (8 - 2)) ∧ (0x00 : Byte) ≠ ack.fbufByte 0 ∧ (0x00 : Byte) ≠ ack.fbufByte 7 ∧
    (0xF5 : Byte).getLsbD 2 = true ∧ (0xF5 : Byte).getLsbD 3 = false ∧ (0xF5 : Byte) ≠ ack.fbufByte 4 ∧
    (0x0D : Byte).getLsbD 2 = true ∧ (0x0D : Byte).getLsbD 3 = true ∧ (0x0D : Byte) ≠ ack.fbufByte 4 := by decide
-- The secure Poll while not established: PARSE refuses it with NOTEST, but its FCS is right.
theorem witness_OneByteInFrame_refused : (after .parse (onF securePoll)).errcode = 0x03 ∧
    (onF securePoll).fbuf (14 - 2) 2 = wireFcs true ((onF securePoll).fbuf 0 (14 - 2)) ∧
    ((onF securePoll).fbufByte 2).toNat + 256 * ((onF securePoll).fbufByte 3).toNat = 14 := by decide
theorem witness_Reserved : locate 0x00B = .reserved ∧ locate 0x3FF = .reserved ∧ locate 0x0E0 = .reserved ∧
    locate 0x016 = .reserved ∧ locate 0x03F = .reserved ∧ locate 0x07F = .reg .sMac2 15 .wo ∧ locate 0x0DF = .reg .blk 15 .rw := by
  decide
theorem witness_HostWriteThenRead : State.reset.busy = false ∧ locate 0x001 = .reg .ctrl 0 .rw ∧
    locate 0x013 = .reg .oplen 1 .rw ∧ locate 0x040 = .reg .key 0 .wo ∧ locate 0x003 = .reg .errcode 0 .ro ∧
    locate 0x015 = .reg .fcs 1 .ro ∧ locate 0x400 = .buffer ∧ locate 0xFFF = .buffer ∧ locate 0x0E0 = .reserved := by decide
theorem witness_WritesWhileBusy : State.busy { State.reset with status := 0x01, wait := 1, host := [.wr 0xFFF 0x55] } = true ∧
    State.host { State.reset with status := 0x01, wait := 1, host := [.wr 0xFFF 0x55] } = .wr 0xFFF 0x55 :: [] ∧
    State.host { State.reset with status := 0x01, wait := 1, host := [.wr 0x002 0x0E] } = .wr 0x002 0x0E :: [] := by decide
theorem witness_HostReads_waiting : State.busy { State.reset with status := 0x01, wait := 1, host := [.rd 0x000] } = true ∧
    State.wait { State.reset with status := 0x01, wait := 1, host := [.rd 0x000] } ≠ 0 ∧
    State.host { State.reset with status := 0x01, wait := 1, host := [.rd 0x000] } = .rd 0x000 :: [] := by decide
theorem witness_HostReads : locate 0x003 = .reg .errcode 0 .ro ∧ locate 0x0DF = .reg .blk 15 .rw ∧
    locate 0x040 = .reg .key 0 .wo ∧ locate 0x3FF = .reserved ∧ State.reset.busy = false ∧ State.busy { State.reset with status := 0x01 } = true ∧
    State.host { State.reset with host := [.rd 0xFFF] } = .rd 0xFFF :: [] := by decide
theorem witness_SameButKeys : SameButKeys .reset { State.reset with key := vKeyC1, sMac2 := vSm2 } ∧
    hostStep .reset = .next .reset := ⟨rfl, rfl⟩
theorem witness_EveryStep : State.reset.mem.wf = true ∧ State.reset.errcode ≤ 0x0C ∧ State.reset.wait = 0 := by decide
theorem witness_StepFaults : step { State.reset with host := [.rd 0x1000] } = .fault (.offsetOutsideWindow 0x1000) ∧
    HostAccess.wellFormed (.wr 0xFFF 0) = true := ⟨rfl, rfl⟩

end Sys2Proof.Tests
end

section
/-! The invariant of the machine under every step (O58). An instruction's writes keep `State.Ready`, what is left of the
invariant once BUSY, DONE and ERRCODE are set aside; its completion sets those three, which gives the invariant back. -/

namespace Sys2Proof.Machine

/-! ### How many bytes the framer stores -/

theorem State.length_data (s : State) : s.data.length = s.dlen.toNat := s.length_dbuf _ _

theorem State.length_wireData (s : State) (scs : Byte) : (s.wireData scs).length = s.wireLen scs := by
  unfold State.wireData State.wireLen
  split
  · have := paddedLen_mod s.dlen.toNat
    simp only [length_cbcEnc, length_pad, State.length_data]
    omega
  · exact s.length_data

/-- 30_encoding.md R93: a supported security block is as long as its first byte says. -/
theorem State.length_securityBlock (s : State) {scs scblen : Byte} (h : scs = 0x00 ∨ scbLenValid scblen = true) :
    (s.securityBlock scs scblen).length = if scs ≠ 0x00 then scblen.toNat else 0 := by
  unfold State.securityBlock
  by_cases h0 : scs = 0x00
  · simp [h0]
  · have hl : scblen = 2 ∨ scblen = 3 := by simpa [scbLenValid] using h.resolve_left h0
    rw [if_neg h0, if_pos h0]
    obtain rfl | rfl := hl <;> rfl

/-- R95: a built frame is as long as its length field says. -/
theorem State.length_frame (s : State) {scs scblen : Byte} (h : scs = 0x00 ∨ scbLenValid scblen = true) :
    (s.frame scs scblen).length = s.frameLen scs scblen := by
  have hmac : (if scsHasMac scs then (s.frameMac scs scblen).toBytes.take 4 else []).length = macLen scs := by
    unfold macLen
    split <;> simp
  simp only [State.frame, length_appendFcs, List.length_append, hmac, State.frameBody, State.length_securityBlock s h,
    State.length_wireData, State.frameLen, List.length_cons, List.length_nil]
  omega

theorem State.length_rxData_le (s : State) (y : Layout) : (s.rxData y).length ≤ y.de - y.ds := by
  unfold State.rxData
  split
  · rw [length_cbcDec, State.length_fbuf]
    omega
  · rw [State.length_fbuf]

/-- 46_framer.md R250: PARSE accepts no more data than DBUF holds. -/
theorem parseLayout_data_le {s : State} {y : Layout} (h : s.parseLayout = .ok y) : y.de - y.ds ≤ 1024 := by
  unfold State.parseLayout at h
  split at h
  · cases h
  split at h
  · cases h
  unfold State.parseBody at h
  dsimp only at h
  split at h
  · cases h
  split at h
  · cases h
  split at h
  · cases h
  rename_i hdata
  split at h
  · cases h
  cases h
  simpa [Config.dbufSize] using hdata

/-! ### What the framer's and the MAC's writes leave alone -/

theorem State.setAccumulator_keeps (s : State) (d : Dir) (b : Block) :
    (s.setAccumulator d b).mem = s.mem ∧ (s.setAccumulator d b).ctrl = s.ctrl ∧ (s.setAccumulator d b).seq = s.seq ∧
    (s.setAccumulator d b).status = s.status ∧ (s.setAccumulator d b).wait = s.wait := by
  cases d <;> exact ⟨rfl, rfl, rfl, rfl, rfl⟩

theorem State.withFrame_keeps (s : State) (scs scblen : Byte) :
    (s.withFrame scs scblen).mem = s.mem.writeBytes Config.fbufBase (s.frame scs scblen) ∧
    (s.withFrame scs scblen).ctrl = s.ctrl ∧ (s.withFrame scs scblen).seq = s.seq ∧
    (s.withFrame scs scblen).status = s.status ∧ (s.withFrame scs scblen).wait = s.wait := by
  obtain ⟨hm, hc, hq, hs, hw⟩ := s.setAccumulator_keeps (scsDir scs) (s.frameMac scs scblen)
  unfold State.withFrame
  cases scsHasMac scs
  · exact ⟨rfl, rfl, rfl, rfl, rfl⟩
  · exact ⟨congrArg (Memory.writeBytes · _ _) hm, hc, hq, hs, hw⟩

theorem State.withParsed_keeps (s : State) (y : Layout) :
    (s.withParsed y).mem = s.mem.writeBytes Config.dbufBase (s.rxData y) ∧ (s.withParsed y).ctrl = s.ctrl ∧
    (s.withParsed y).seq = y.ctrl &&& seqMask ∧ (s.withParsed y).status = s.status ∧
    (s.withParsed y).wait = s.wait := by
  obtain ⟨hm, hc, -, hs, hw⟩ := s.setAccumulator_keeps (scsDir y.scs) (s.rxMac y)
  unfold State.withParsed
  cases scsHasMac y.scs
  · exact ⟨rfl, rfl, rfl, rfl, rfl⟩
  · exact ⟨congrArg (Memory.writeBytes · _ _) hm, hc, rfl, hs, hw⟩

/-! ### The reserved bits -/

theorem statusReserved_iff (b : Byte) : b &&& ~~~statusMask = 0 ↔ b.getLsbD 7 = false := by revert b; decide

theorem and_ctrlMask_reserved (b : Byte) : (b &&& ctrlMask) &&& ~~~ctrlMask = 0 := by simp [BitVec.and_assoc]

theorem and_seqMask_reserved (b : Byte) : (b &&& seqMask) &&& ~~~seqMask = 0 := by simp [BitVec.and_assoc]

/-- One bit of STATUS below the reserved one written. -/
theorem statusReserved_setBit {b : Byte} (n : Nat) (v : Bool) (hn : n < 7) (h : b &&& ~~~statusMask = 0) :
    setBit b n v &&& ~~~statusMask = 0 := by
  rw [statusReserved_iff] at h ⊢
  rw [getLsbD_setBit _ _ _ _ (by decide) (by omega), if_neg (by omega), h]

/-! ### Between the issue of an instruction and its completion -/

/-- The invariant without BUSY, DONE and ERRCODE, which a completion sets, in a state that has waited for its LATENCY. -/
structure State.Ready (s : State) : Prop where
  memory : s.mem.wf = true
  ctrlReserved : s.ctrl &&& ~~~ctrlMask = 0
  seqReserved : s.seq &&& ~~~seqMask = 0
  statusReserved : s.status &&& ~~~statusMask = 0
  waited : s.wait = 0

namespace State.Ready

variable {s t u : State}

theorem of_completionDue (h : s.Inv) (hd : s.completionDue = true) : s.Ready := by
  simp only [State.completionDue, Bool.and_eq_true, beq_iff_eq] at hd
  exact ⟨h.memory, h.ctrlReserved, h.seqReserved, h.statusReserved, hd.2⟩

/-- A write of neither CTRL, SEQ, STATUS nor the wait that leaves the buffers canonical. -/
theorem write (h : s.Ready) (hm : u.mem.wf = true) (hc : u.ctrl = s.ctrl := by rfl) (hq : u.seq = s.seq := by rfl)
    (hs : u.status = s.status := by rfl) (hw : u.wait = s.wait := by rfl) : u.Ready :=
  ⟨hm, hc ▸ h.ctrlReserved, hq ▸ h.seqReserved, hs ▸ h.statusReserved, hw ▸ h.waited⟩

theorem setStatusBit (h : s.Ready) {n : Nat} {v : Bool} (hn : n < 7) : (s.setStatusBit n v).Ready :=
  ⟨h.memory, h.ctrlReserved, h.seqReserved, statusReserved_setBit n v hn h.statusReserved, h.waited⟩

theorem setEstablished {v : Bool} (h : s.Ready) : (s.setEstablished v).Ready := h.setStatusBit (by decide)

theorem setMatched {v : Bool} (h : s.Ready) : (s.setMatched v).Ready := h.setStatusBit (by decide)

theorem setDefkey {v : Bool} (h : s.Ready) : (s.setDefkey v).Ready := h.setStatusBit (by decide)

theorem setAccumulator (h : s.Ready) (d : Dir) (b : Block) : (s.setAccumulator d b).Ready := by
  obtain ⟨hm, hc, hq, hs, hw⟩ := s.setAccumulator_keeps d b
  exact h.write (hm ▸ h.memory) hc hq hs hw

theorem writeDbuf (h : s.Ready) (i : Nat) (d : Bytes) (hd : i + d.length ≤ 1024) : (s.writeDbuf i d).Ready :=
  h.write (Memory.wf_writeBytes _ _ _ h.memory (Nat.le_add_right _ _)
    (by simp only [Config.dbufBase, Config.windowSize]; omega))

theorem withFrame (h : s.Ready) {scs scblen : Byte} (hb : s.buildError scs scblen = none) :
    (s.withFrame scs scblen).Ready := by
  obtain ⟨-, hscs, -, hlen⟩ := buildError_none hb
  obtain ⟨hm, hc, hq, hs, hw⟩ := s.withFrame_keeps scs scblen
  refine h.write ?_ hc hq hs hw
  rw [hm]
  refine Memory.wf_writeBytes _ _ _ h.memory (by decide) ?_
  rw [s.length_frame (hscs.imp_right And.right)]
  simp only [Config.fbufBase, Config.windowSize]
  omega

theorem withParsed (h : s.Ready) {y : Layout} (hy : s.parseLayout = .ok y) : (s.withParsed y).Ready := by
  obtain ⟨hm, hc, hq, hs, hw⟩ := s.withParsed_keeps y
  refine ⟨?_, hc ▸ h.ctrlReserved, hq ▸ and_seqMask_reserved _, hs ▸ h.statusReserved, hw ▸ h.waited⟩
  rw [hm]
  refine Memory.wf_writeBytes _ _ _ h.memory (by decide) ?_
  have := (s.length_rxData_le y).trans (parseLayout_data_le hy)
  simp only [Config.dbufBase, Config.windowSize]
  omega

theorem softReset (h : s.Ready) : s.softReset.Ready :=
  ⟨h.memory, by rw [State.softReset_ctrl]; decide, by rw [State.softReset_seq]; decide,
    by rw [State.softReset_status]; decide, h.waited⟩

end State.Ready

/-! ### Completions -/

namespace State.Inv

variable {s t : State}

/-- A completion gives the whole invariant back. -/
theorem complete (h : s.Ready) {c : Byte} (hc : c ≤ 0x0C) : (s.complete c).Inv where
  memory := h.memory
  ctrlReserved := h.ctrlReserved
  seqReserved := h.seqReserved
  statusReserved :=
    statusReserved_setBit 1 _ (by decide)
      (statusReserved_setBit 0 _ (by decide) (statusReserved_setBit 2 _ (by decide) h.statusReserved))
  errcode := hc
  busyNotDone := by simp
  idleWait := fun _ => h.waited

theorem success (h : s.Ready) : (s.complete 0x00).Inv := complete h (by decide)

theorem error (h : s.Ready) (e : ErrCode) : (s.complete e.toByte).Inv := complete h e.toByte_le

theorem matchError (h : s.Ready) (e : ErrCode) : ((s.setMatched false).complete e.toByte).Inv :=
  .error h.setMatched e

end State.Inv

section
variable {s t : State}

theorem macSpan_inv {d : Dir} (h : s.Ready) (ht : macSpan d s = .next t) : t.Inv := by
  obtain ⟨-, rfl⟩ | ⟨-, -, rfl⟩ | ⟨-, -, rfl⟩ := macSpan_cases ht
  exacts [.error h _, .error h _, .success (h.setAccumulator d _)]

/-- The data cipher's output is no longer than the data, so it stays inside DBUF. -/
theorem cipherData_inv {f : Bytes → Bytes} (hf : ∀ d, (f d).length = 16 * (d.length / 16)) (h : s.Ready)
    (ht : cipherData f s = .next t) : t.Inv := by
  obtain ⟨e, rfl, -⟩ | ⟨-, -, -, rfl⟩ | ⟨hr, -, -, -, rfl⟩ := cipherData_cases ht
  · exact .error h e
  · exact .success h
  · rw [← Bool.not_eq_true, dataOutOfRange_iff] at hr
    refine .success (h.writeDbuf 0 _ ?_)
    rw [hf, State.length_data]
    omega

/-- Every instruction ends in a state of the invariant. -/
theorem exec_inv {i : Instr} (h : s.Ready) (ht : exec i s = .next t) : t.Inv := by
  cases i
  case nop => exact finish_eq_next.1 ht ▸ .success h
  case sreset => exact finish_eq_next.1 ht ▸ .success h.softReset
  case crc16 =>
    obtain ⟨-, rfl⟩ | ⟨-, rfl⟩ := execCrc16_cases ht
    exacts [.error h _, .success (h.write h.memory)]
  case cksum8 =>
    obtain ⟨-, rfl⟩ | ⟨-, rfl⟩ := execCksum8_cases ht
    exacts [.error h _, .success (h.write h.memory)]
  case vcrc16 =>
    obtain ⟨e, rfl, -⟩ | ⟨-, -, c, -, -, -, rfl⟩ := execVcrc16_cases ht
    exacts [.matchError h e, .success (.setMatched (h.write h.memory))]
  case vcksum8 =>
    obtain ⟨e, rfl, -⟩ | ⟨-, -, c, -, -, rfl⟩ := execVcksum8_cases ht
    exacts [.matchError h e, .success (.setMatched (h.write h.memory))]
  case aeseKey | aeseEnc | aeseMac1 | aeseMac2 | aesdKey | aesdEnc | aesdMac1 | aesdMac2 | derive | crypt =>
    rw [finish_eq_next.1 ht]
    exact .success (h.write h.memory)
  case pad =>
    obtain ⟨-, rfl⟩ | ⟨hn, rfl⟩ := execPad_cases ht
    · exact .error h _
    · have hfit : s.dlen.toNat + (padTail s.dlen.toNat).length ≤ 1024 := by
        rw [length_padTail]
        omega
      exact .success (h.write (h.writeDbuf _ _ hfit).memory)
  case unpad =>
    obtain ⟨-, rfl⟩ | ⟨-, -, rfl⟩ | ⟨-, i, -, rfl⟩ := execUnpad_cases ht
    exacts [.error h _, .error h _, .success (h.write h.memory)]
  case screset =>
    rw [finish_eq_next.1 ht]
    exact .success (.setDefkey (.setEstablished (h.write h.memory)))
  case vccrypt =>
    obtain ⟨-, rfl⟩ | ⟨-, rfl⟩ := execVccrypt_cases ht
    exacts [.matchError h _, .success h.setMatched]
  case vscrypt =>
    obtain ⟨-, rfl⟩ | ⟨-, rfl⟩ := execVscrypt_cases ht
    exacts [.matchError h _, .success (.setMatched (.setEstablished (h.write h.memory)))]
  case adoptrmac =>
    rw [finish_eq_next.1 ht]
    exact .success (.setEstablished (h.write h.memory))
  case macc | macr => exact macSpan_inv h ht
  case encc | encr => exact cipherData_inv (length_cbcEnc _ _) h ht
  case decc | decr => exact cipherData_inv (length_cbcDec _ _) h ht
  case build =>
    obtain ⟨e, -, rfl⟩ | ⟨hb, rfl⟩ := execBuild_cases ht
    exacts [.error h e, .success (h.withFrame hb)]
  case builda =>
    obtain ⟨e, -, rfl⟩ | ⟨hb, rfl⟩ := execBuilda_cases ht
    exacts [.error h e, .success ((h.withFrame hb).write (h.withFrame hb).memory)]
  case parse =>
    obtain ⟨e, -, rfl⟩ | ⟨y, hy, -, rfl⟩ | ⟨y, hy, -, rfl⟩ := execParse_cases ht
    exacts [.matchError h e, .matchError (h.withParsed hy) _, .success (h.withParsed hy).setMatched]

end

/-! ### The host's turn -/

theorem getLsbD_clearStatus (b v : Byte) (k : Nat) (hk : k < 8) :
    (clearStatus b v).getLsbD k = (b.getLsbD k && !(v.getLsbD k && (0x0E : Byte).getLsbD k)) := by
  simp only [clearStatus, BitVec.getLsbD_and, BitVec.getLsbD_not, hk, decide_true, Bool.true_and]

/-- 10_state.md R25: a write to STATUS clears the flags DONE, ERR and OVR where it holds 1. -/
theorem flag_acknowledge (s : State) (v : Byte) (f : Flag) :
    (s.acknowledge v).flag f = (s.flag f && !(v.getLsbD f.bit && (0x0E : Byte).getLsbD f.bit)) := by
  rw [State.flag_eq, State.flag_eq, State.acknowledge_status, getLsbD_clearStatus _ _ _ f.bit_lt]

section
variable (s : State) (v : Byte)

theorem busy_acknowledge : (s.acknowledge v).busy = s.busy :=
  (flag_acknowledge s v .busy).trans (by simp [State.flag, Flag.bit])

theorem done_acknowledge : (s.acknowledge v).done = (s.done && !v.getLsbD 1) :=
  (flag_acknowledge s v .done).trans (by simp [State.flag, Flag.bit])

theorem err_acknowledge : (s.acknowledge v).err = (s.err && !v.getLsbD 2) :=
  (flag_acknowledge s v .err).trans (by simp [State.flag, Flag.bit])

theorem ovr_acknowledge : (s.acknowledge v).ovr = (s.ovr && !v.getLsbD 3) :=
  (flag_acknowledge s v .ovr).trans (by simp [State.flag, Flag.bit])

theorem established_acknowledge : (s.acknowledge v).established = s.established :=
  (flag_acknowledge s v .established).trans (by simp [State.flag, Flag.bit])

theorem matched_acknowledge : (s.acknowledge v).matched = s.matched :=
  (flag_acknowledge s v .matched).trans (by simp [State.flag, Flag.bit])

theorem defkey_acknowledge : (s.acknowledge v).defkey = s.defkey :=
  (flag_acknowledge s v .defkey).trans (by simp [State.flag, Flag.bit])

end

theorem busy_issue (s : State) (v : Byte) : (s.issue v).busy = true :=
  (by simp : ((s.setBusy true).setDone false).busy = true)

theorem done_issue (s : State) (v : Byte) : (s.issue v).done = false :=
  (by simp : ((s.setBusy true).setDone false).done = false)

namespace State.Inv

variable {s : State}

theorem tick (h : s.Inv) : s.tick.Inv :=
  { h with
    idleWait := fun hb => by
      have hidle : s.busy = false := hb
      simp [State.tick, hidle, h.idleWait hidle] }

theorem acknowledge (h : s.Inv) (v : Byte) : (s.acknowledge v).Inv :=
  { h with
    statusReserved := by
      rw [statusReserved_iff, State.acknowledge, getLsbD_clearStatus _ _ _ (by decide),
        (statusReserved_iff _).1 h.statusReserved, Bool.false_and]
    busyNotDone := by
      rw [busy_acknowledge, done_acknowledge]
      rintro ⟨hb, hd⟩
      exact h.busyNotDone ⟨hb, (Bool.and_eq_true_iff.1 hd).1⟩
    idleWait := fun hb => h.idleWait (busy_acknowledge s v ▸ hb) }

theorem issue (h : s.Inv) (v : Byte) : (s.issue v).Inv where
  memory := h.memory
  ctrlReserved := h.ctrlReserved
  seqReserved := h.seqReserved
  statusReserved := statusReserved_setBit 1 _ (by decide) (statusReserved_setBit 0 _ (by decide) h.statusReserved)
  errcode := h.errcode
  busyNotDone := by simp [done_issue]
  idleWait := by simp [busy_issue]

theorem setOvr (h : s.Inv) (v : Bool) : (s.setOvr v).Inv :=
  { h with
    statusReserved := statusReserved_setBit 3 v (by decide) h.statusReserved
    busyNotDone := by simpa using h.busyNotDone
    idleWait := by simpa using h.idleWait }

end State.Inv

/-- 10_state.md R39: a register byte the host writes leaves the reserved bits of CTRL and SEQ at 0. -/
theorem setRegByte_reserved (s : State) (r : Reg) (i : Nat) (v : Byte) (hc : s.ctrl &&& ~~~ctrlMask = 0)
    (hq : s.seq &&& ~~~seqMask = 0) :
    (s.setRegByte r i v).ctrl &&& ~~~ctrlMask = 0 ∧ (s.setRegByte r i v).seq &&& ~~~seqMask = 0 := by
  cases r
  case ctrl =>
    refine ⟨?_, hq⟩
    cases i
    exacts [and_ctrlMask_reserved v, hc]
  case seq =>
    refine ⟨hc, ?_⟩
    cases i
    exacts [and_seqMask_reserved v, hq]
  all_goals exact ⟨hc, hq⟩

namespace State.Inv

variable {s : State}

theorem setRegByte (h : s.Inv) (r : Reg) (i : Nat) (v : Byte) : (s.setRegByte r i v).Inv := by
  obtain ⟨hm, hs, he, -, hw, -⟩ := setRegByte_keeps s r i v
  obtain ⟨hc, hq⟩ := setRegByte_reserved s r i v h.ctrlReserved h.seqReserved
  refine ⟨hm ▸ h.memory, hc, hq, hs ▸ h.statusReserved, he ▸ h.errcode, ?_, ?_⟩
  · simpa only [State.busy, State.done, hs] using h.busyNotDone
  · simpa only [State.busy, hs, hw] using h.idleWait

theorem hostWrite (h : s.Inv) {off : Nat} (v : Byte) (ho : off < Config.windowSize) : (s.hostWrite off v).Inv := by
  have hm := wf_hostWrite s off v h.memory ho
  unfold State.hostWrite at hm ⊢
  split
  · exact h.setOvr true
  · rename_i hi
    rw [if_neg hi] at hm
    obtain h' | h' | ⟨r, i, -, h'⟩ | ⟨r, i, -, h'⟩ | h' | ⟨-, h'⟩ := idleWrite_cases s off v <;> rw [h'] at hm ⊢
    · exact h.issue v
    · exact h.acknowledge v
    · exact h.setRegByte r i v
    · exact h.setRegByte r i v
    · exact h
    · exact { h with memory := hm }

end State.Inv

theorem hostStep_inv {s t : State} (h : s.Inv) (ht : hostStep s = .next t) : t.Inv := by
  obtain ⟨-, rfl⟩ | ⟨off, rest, -, -, rfl⟩ | ⟨off, v, rest, -, ho, rfl⟩ := hostStep_cases ht
  · exact h
  · exact { h with }
  · exact State.Inv.hostWrite (s := { s with host := rest }) { h with } v ho

/-- Settles O58: a completion ends in the invariant because the instruction's own writes keep `State.Ready`; a turn of the host
keeps it access by access. -/
theorem everyStepKeepsTheInvariant : Obligations.EveryStepKeepsTheInvariant := by
  intro s t hs ht
  obtain ⟨hd, i, -, he⟩ | ⟨hd, -, rfl⟩ | ⟨-, hh⟩ := step_cases ht
  · exact exec_inv (.of_completionDue hs hd) he
  · exact .error (.of_completionDue hs hd) _
  · exact hostStep_inv hs.tick hh

end Sys2Proof.Machine
end

section
/-! Which instructions change ESTABLISHED (O12). -/

namespace Sys2Proof.Machine

section
variable {s t u : State}

/-! ### ESTABLISHED at a completion of a state with the STATUS of `s`, MATCH written or not -/

theorem established_complete_of_status (c : Byte) (h : u.status = s.status := by rfl) :
    (u.complete c).established = s.established := by
  rw [State.established_complete, State.established, h, State.established]

theorem established_complete_setMatched (v : Bool) (c : Byte) (h : u.status = s.status := by rfl) :
    ((u.setMatched v).complete c).established = s.established := by
  have hu : (u.setMatched v).established = u.established := by simp
  rw [State.established_complete, hu, State.established, h, State.established]

theorem macSpan_established {d : Dir} (h : macSpan d s = .next t) : t.established = s.established := by
  obtain ⟨-, rfl⟩ | ⟨-, -, rfl⟩ | ⟨-, -, rfl⟩ := macSpan_cases h
  · exact established_complete_of_status _
  · exact established_complete_of_status _
  · obtain ⟨-, -, -, hst, -⟩ := s.setAccumulator_keeps d (s.dirMac d s.span)
    exact established_complete_of_status _ hst

theorem cipherData_established {f : Bytes → Bytes} (h : cipherData f s = .next t) : t.established = s.established := by
  obtain ⟨e, rfl, -⟩ | ⟨-, -, -, rfl⟩ | ⟨-, -, -, -, rfl⟩ := cipherData_cases h
  all_goals exact established_complete_of_status _

/-! ### Every instruction -/

/-- What an instruction does to ESTABLISHED: it keeps it, or it is one of the four that write it and succeeds. -/
inductive EstablishedAfter (i : Instr) (s t : State) : Prop where
  | kept (h : t.established = s.established)
  | set (hi : i = .vscrypt ∨ i = .adoptrmac) (hc : t.errcode = 0x00) (h : t.established = true)
  | cleared (hi : i = .screset ∨ i = .sreset) (hc : t.errcode = 0x00) (h : t.established = false)

theorem exec_establishedAfter {i : Instr} (h : exec i s = .next t) : EstablishedAfter i s t := by
  cases i
  case sreset =>
    rw [finish_eq_next.1 h]
    exact .cleared (.inr rfl) rfl (established_complete_of_status (s := .reset) _)
  case screset =>
    rw [finish_eq_next.1 h]
    exact .cleared (.inl rfl) rfl (by simp)
  case vscrypt =>
    obtain ⟨-, rfl⟩ | ⟨-, rfl⟩ := execVscrypt_cases h
    · exact .kept (established_complete_setMatched _ _)
    · exact .set (.inl rfl) rfl (by simp)
  case adoptrmac =>
    rw [finish_eq_next.1 h]
    exact .set (.inr rfl) rfl (by simp)
  all_goals refine .kept ?_
  case nop | aeseKey | aeseEnc | aeseMac1 | aeseMac2 | aesdKey | aesdEnc | aesdMac1 | aesdMac2 | derive | crypt =>
    rw [finish_eq_next.1 h]
    exact established_complete_of_status _
  case crc16 => obtain ⟨-, rfl⟩ | ⟨-, rfl⟩ := execCrc16_cases h <;> exact established_complete_of_status _
  case cksum8 => obtain ⟨-, rfl⟩ | ⟨-, rfl⟩ := execCksum8_cases h <;> exact established_complete_of_status _
  case vcrc16 =>
    obtain ⟨e, rfl, -⟩ | ⟨-, -, c, -, -, -, rfl⟩ := execVcrc16_cases h <;> exact established_complete_setMatched _ _
  case vcksum8 =>
    obtain ⟨e, rfl, -⟩ | ⟨-, -, c, -, -, rfl⟩ := execVcksum8_cases h <;> exact established_complete_setMatched _ _
  case pad => obtain ⟨-, rfl⟩ | ⟨-, rfl⟩ := execPad_cases h <;> exact established_complete_of_status _
  case unpad =>
    obtain ⟨-, rfl⟩ | ⟨-, -, rfl⟩ | ⟨-, i, -, rfl⟩ := execUnpad_cases h <;> exact established_complete_of_status _
  case vccrypt => obtain ⟨-, rfl⟩ | ⟨-, rfl⟩ := execVccrypt_cases h <;> exact established_complete_setMatched _ _
  case macc | macr => exact macSpan_established h
  case encc | encr | decc | decr => exact cipherData_established h
  case build =>
    obtain ⟨-, -, -, hst, -⟩ := s.withFrame_keeps s.scs s.scblen
    obtain ⟨e, -, rfl⟩ | ⟨-, rfl⟩ := execBuild_cases h
    exacts [established_complete_of_status _, established_complete_of_status _ hst]
  case builda =>
    obtain ⟨-, -, -, hst, -⟩ := s.withFrame_keeps s.autoScs s.autoScblen
    obtain ⟨e, -, rfl⟩ | ⟨-, rfl⟩ := execBuilda_cases h
    exacts [established_complete_of_status _, established_complete_of_status _ hst]
  case parse =>
    obtain ⟨e, -, rfl⟩ | ⟨y, -, -, rfl⟩ | ⟨y, -, -, rfl⟩ := execParse_cases h
    · exact established_complete_setMatched _ _
    all_goals
      obtain ⟨-, -, -, hst, -⟩ := s.withParsed_keeps y
      exact established_complete_setMatched _ _ hst

end

/-- Settles O12: the four instructions that write ESTABLISHED write it only when they succeed, and every other keeps it. -/
theorem onlyHandshakeInstructionsChangeEstablished : Obligations.OnlyHandshakeInstructionsChangeEstablished := by
  intro i s t h
  obtain hk | ⟨hi, hc, hv⟩ | ⟨hi, hc, hv⟩ := exec_establishedAfter h
  · exact ⟨fun h0 h1 => by simp_all, fun h1 h0 => by simp_all, fun _ => hk⟩
  · exact ⟨fun _ _ => hi, fun _ h0 => by simp_all, fun hne => absurd hc hne⟩
  · exact ⟨fun _ h1 => by simp_all, fun _ _ => hi, fun hne => absurd hc hne⟩

end Sys2Proof.Machine
end

section
/-! The map of the window (O51) and the bytes of the registers (O60). -/

namespace Sys2Proof.Machine

/-! ### Rows of the map -/

/-- The offset lies in the row. -/
def RegRow.Holds (row : RegRow) (off : Nat) : Prop := row.base ≤ off ∧ off < row.base + row.size

theorem findRow_eq_none {off : Nat} {rows : List RegRow} : findRow off rows = none ↔ ∀ row ∈ rows, ¬ row.Holds off := by
  induction rows with
  | nil => simp [findRow]
  | cons r rest ih =>
    rw [findRow, List.forall_mem_cons, ← ih]
    by_cases h : r.base ≤ off ∧ off < r.base + r.size <;> simp [h, RegRow.Holds]

theorem mem_of_findRow {off : Nat} {row : RegRow} {rows : List RegRow} (h : findRow off rows = some row) :
    row ∈ rows ∧ row.Holds off := by
  induction rows with
  | nil => cases h
  | cons r rest ih =>
    rw [findRow] at h
    split at h
    · cases h
      exact ⟨List.mem_cons_self, ‹_›⟩
    · exact (ih h).imp_left (List.mem_cons_of_mem r)

/-- No offset lies in two rows. -/
theorem regMap_disjoint : ∀ row ∈ regMap, ∀ row' ∈ regMap,
    row = row' ∨ row.base + row.size ≤ row'.base ∨ row'.base + row'.size ≤ row.base := by decide

/-- No register has two rows. -/
theorem regMap_reg_inj : ∀ row ∈ regMap, ∀ row' ∈ regMap, row.reg = row'.reg → row = row' := by decide

theorem regMap_below_buffers : ∀ row ∈ regMap, row.base + row.size ≤ Config.dbufBase := by decide

theorem findRow_regMap {off : Nat} {row : RegRow} : findRow off regMap = some row ↔ row ∈ regMap ∧ row.Holds off := by
  refine ⟨mem_of_findRow, fun ⟨hm, hb⟩ => ?_⟩
  cases hf : findRow off regMap with
  | none => exact absurd hb (findRow_eq_none.1 hf row hm)
  | some row' =>
    obtain ⟨hm', hb'⟩ := mem_of_findRow hf
    unfold RegRow.Holds at hb hb'
    obtain rfl | hlt | hlt := regMap_disjoint row hm row' hm'
    · rfl
    · omega
    · omega

/-! ### What lies at an offset -/

/-- An offset holds byte `i` of a register when it is the register's row's base + i. -/
theorem locate_eq_reg {off i : Nat} {r : Reg} {a : Access} :
    locate off = .reg r i a ↔ ∃ row ∈ regMap, row.reg = r ∧ row.access = a ∧ off = row.base + i ∧ i < row.size := by
  constructor
  · intro h
    unfold locate at h
    split at h
    · cases h
    split at h
    · rename_i row hf
      cases h
      obtain ⟨hm, hb, hl⟩ := mem_of_findRow hf
      exact ⟨row, hm, rfl, rfl, by omega, by omega⟩
    · cases h
  · rintro ⟨row, hm, rfl, rfl, rfl, hi⟩
    have hlow := regMap_below_buffers row hm
    have hrow : findRow (row.base + i) regMap = some row :=
      findRow_regMap.2 ⟨hm, Nat.le_add_right _ _, Nat.add_lt_add_left hi _⟩
    simp only [locate, hrow]
    rw [if_neg (by omega), Nat.add_sub_cancel_left]

theorem locate_eq_buffer {off : Nat} : locate off = .buffer ↔ 0x400 ≤ off := by
  refine ⟨fun h => ?_, locate_buffer off⟩
  unfold locate at h
  split at h
  · assumption
  · split at h <;> cases h

theorem locate_eq_reserved {off : Nat} : locate off = .reserved ↔ off < 0x400 ∧ ∀ row ∈ regMap, ¬ row.Holds off := by
  rw [← findRow_eq_none]
  unfold locate
  constructor
  · intro h
    split at h
    · cases h
    · split at h
      · cases h
      · exact ⟨by simp_all [Config.dbufBase], ‹_›⟩
  · rintro ⟨hlt, hn⟩
    rw [if_neg (by simpa [Config.dbufBase] using hlt), hn]

/-- Each register byte lies at one offset. -/
theorem locate_reg_inj {off off' i : Nat} {r : Reg} {a a' : Access} (h : locate off = .reg r i a)
    (h' : locate off' = .reg r i a') : off = off' := by
  obtain ⟨row, hm, hr, -, ho, -⟩ := locate_eq_reg.1 h
  obtain ⟨row', hm', hr', -, ho', -⟩ := locate_eq_reg.1 h'
  rw [ho, ho', regMap_reg_inj row hm row' hm' (hr.trans hr'.symm)]

/-- Settles O51: the rows are disjoint, so an offset's row is the one that holds it. -/
theorem reservedOffsetsAreThoseOfTheMap : Obligations.ReservedOffsetsAreThoseOfTheMap := by
  refine ⟨fun p hp off r i a => ?_, fun off _ => locate_eq_buffer, fun off _ => ?_⟩
  · have hrow : (⟨p.1, p.2.1, p.2.2.1, p.2.2.2⟩ : RegRow) ∈ regMap := by
      revert p
      decide
    rw [locate_eq_reg]
    constructor
    · rintro ⟨⟨row, hm, hr, rfl, rfl, hi⟩, rfl⟩
      obtain rfl := regMap_reg_inj row hm _ hrow hr
      exact ⟨rfl, hi, rfl, rfl⟩
    · rintro ⟨rfl, hi, rfl, rfl⟩
      exact ⟨⟨_, hrow, rfl, rfl, rfl, hi⟩, rfl⟩
  · rw [locate_eq_reserved]
    simp only [regMap, List.cons_append, List.nil_append, List.forall_mem_cons, RegRow.Holds, List.not_mem_nil,
      false_implies, implies_true, and_true]
    omega

/-! ### The bytes of a register -/

theorem Block.map_get_range (b : Block) : (List.range 16).map b.get = b.toBytes := rfl

theorem Rnd.map_get_range (r : Rnd) : (List.range 8).map r.get = r.toBytes := rfl

/-- Settles O60: each register is read by position from its one part of the state. -/
theorem registerBytesAreThoseOfTheState : Obligations.RegisterBytesAreThoseOfTheState := by
  intro s
  refine ⟨?_, ?_, ?_, ?_⟩
  · simp only [List.forall_mem_cons]
    exact ⟨rfl, rfl, rfl, rfl, rfl, rfl, rfl, rfl, rfl, rfl, rfl, by simp⟩
  · simp [State.regByte, halfByte, toNat_loByte, toNat_hiByte]
  · simp only [List.forall_mem_cons]
    exact ⟨Block.map_get_range _, Block.map_get_range _, Block.map_get_range _, Block.map_get_range _,
      Block.map_get_range _, Block.map_get_range _, Block.map_get_range _, Block.map_get_range _,
      Block.map_get_range _, by simp⟩
  · simp only [List.forall_mem_cons]
    exact ⟨Rnd.map_get_range _, Rnd.map_get_range _, by simp⟩

end Sys2Proof.Machine
end

section
/-! Host accesses: what a write does to the bytes that can be read (O52), and that no access reveals the keys (O56). -/

namespace Sys2Proof

/-! ### Byte i of a string replaced -/

theorem Quad.get_set (q : Quad) (v : Byte) (i j : Nat) (hi : i < 4) :
    (q.set v i).get j = if j = i then v else q.get j := by
  interval_cases i <;> rcases j with _ | _ | _ | _ | j <;> simp [Quad.set, Quad.get]

theorem Rnd.get_set (r : Rnd) (v : Byte) (i j : Nat) (hi : i < 8) :
    (r.set v i).get j = if j = i then v else r.get j := by
  have hj : j = i ↔ j / 4 = i / 4 ∧ j % 4 = i % 4 := by omega
  have hm : i % 4 < 4 := Nat.mod_lt _ (by decide)
  simp only [hj, Rnd.set, Rnd.get]
  have hq : i / 4 < 2 := by omega
  generalize i / 4 = q at *
  interval_cases q <;> rcases j / 4 with _ | _ | k <;> simp [Quad.get_set, hm]

theorem Block.get_set (b : Block) (v : Byte) (i j : Nat) (hi : i < 16) :
    (b.set v i).get j = if j = i then v else b.get j := by
  have hj : j = i ↔ j / 4 = i / 4 ∧ j % 4 = i % 4 := by omega
  have hm : i % 4 < 4 := Nat.mod_lt _ (by decide)
  simp only [hj, Block.set, Block.get]
  have hq : i / 4 < 4 := by omega
  generalize i / 4 = q at *
  interval_cases q <;> rcases j / 4 with _ | _ | _ | _ | k <;> simp [Quad.get_set, hm]

namespace Machine

theorem oneByte_setOneByte (b v : Byte) (i j : Nat) (hi : i < 1) :
    oneByte (setOneByte b v i) j = if j = i then v else oneByte b j := by
  interval_cases i
  cases j <;> simp [oneByte, setOneByte]

theorem halfByte_setHalfByte (h : Half) (v : Byte) (i j : Nat) (hi : i < 2) :
    halfByte (setHalfByte h v i) j = if j = i then v else halfByte h j := by
  interval_cases i <;> rcases j with _ | _ | j <;> simp [halfByte, setHalfByte]

theorem setOneByte_and (b v m : Byte) (i : Nat) : setOneByte b (v &&& m) i &&& m = setOneByte (b &&& m) (v &&& m) i := by
  cases i <;> simp [setOneByte, BitVec.and_assoc]

/-! ### A register byte written -/

/-- What a host write of `v` to a byte of a register stores (10_state.md R24, R28: the reserved bits of CTRL and SEQ stay 0). -/
def Reg.written (r : Reg) (v : Byte) : Byte := if r = .ctrl then v &&& ctrlMask else if r = .seq then v &&& seqMask else v

/-- A write to a register leaves every other register's bytes alone: `setRegByte` updates the one field of its register. -/
theorem regByte_setRegByte_other (s : State) {r r' : Reg} (i j : Nat) (v : Byte) (h : r' ≠ r) :
    (s.setRegByte r i v).regByte r' j = s.regByte r' j := by
  cases r <;> cases r' <;> first | rfl | exact absurd rfl h

/-- A byte of a register that the map lets the host write is the byte written; the register's other bytes are as before. -/
theorem regByte_setRegByte_same (s : State) {row : RegRow} (hm : row ∈ regMap) (ha : row.access = .rw ∨ row.access = .wo)
    (i j : Nat) (v : Byte) (hi : i < row.size) :
    (s.setRegByte row.reg i v).regByte row.reg j = if j = i then row.reg.written v else s.regByte row.reg j := by
  revert ha hi
  simp only [regMap, List.cons_append, List.nil_append] at hm
  fin_cases hm <;> simp +contextual [State.setRegByte, State.regByte, Reg.written, setOneByte_and, oneByte_setOneByte,
    halfByte_setHalfByte, Rnd.get_set, Block.get_set]

/-! ### What an idle host write does -/

section
variable {s : State} {off i : Nat} {r : Reg} {a : Access} (v : Byte) (hb : s.busy = false)
include hb

theorem hostRead_of_idle (off : Nat) : s.hostRead off = s.idleRead off := by simp [State.hostRead, hb]

theorem hostWrite_of_idle (off : Nat) : s.hostWrite off v = s.idleWrite off v := by simp [State.hostWrite, hb]

theorem hostWrite_reg (ha : a = .rw ∨ a = .wo) (hl : locate off = .reg r i a) :
    s.hostWrite off v = s.setRegByte r i v := by
  obtain rfl | rfl := ha <;> simp only [hostWrite_of_idle v hb, State.idleWrite, hl]

theorem hostWrite_buffer (hl : locate off = .buffer) : s.hostWrite off v = { s with mem := s.mem.set off v } := by
  simp only [hostWrite_of_idle v hb, State.idleWrite, hl]

theorem hostWrite_ro (hl : locate off = .reg r i .ro) : s.hostWrite off v = s := by
  simp only [hostWrite_of_idle v hb, State.idleWrite, hl]

theorem hostWrite_reserved (hl : locate off = .reserved) : s.hostWrite off v = s := by
  simp only [hostWrite_of_idle v hb, State.idleWrite, hl]

end

/-- OPC and STATUS are the only registers with their access classes. -/
theorem regMap_issue_or_w1c : ∀ row ∈ regMap, row.access = .issue ∨ row.access = .w1c →
    row.size = 1 ∧ (row.base = 0x000 ∨ row.base = 0x002) := by decide

/-- What an idle write at an offset other than OPC and STATUS can do. -/
theorem hostWrite_idle_cases {s : State} {off : Nat} (v : Byte) (hb : s.busy = false) (h0 : off ≠ 0x000)
    (h2 : off ≠ 0x002) :
    (∃ r i a, (a = .rw ∨ a = .wo) ∧ locate off = .reg r i a ∧ s.hostWrite off v = s.setRegByte r i v) ∨
    s.hostWrite off v = { s with mem := s.mem.set off v } ∨
    s.hostWrite off v = s := by
  cases hl : locate off with
  | buffer => exact .inr (.inl (hostWrite_buffer v hb hl))
  | reserved => exact .inr (.inr (hostWrite_reserved v hb hl))
  | reg r i a =>
    cases a with
    | rw => exact .inl ⟨r, i, _, .inl rfl, rfl, hostWrite_reg v hb (.inl rfl) hl⟩
    | wo => exact .inl ⟨r, i, _, .inr rfl, rfl, hostWrite_reg v hb (.inr rfl) hl⟩
    | ro => exact .inr (.inr (hostWrite_ro v hb hl))
    | issue | w1c =>
      obtain ⟨row, hm, -, ha, ho, hi⟩ := locate_eq_reg.1 hl
      obtain ⟨hsize, hbase⟩ := regMap_issue_or_w1c row hm (by simp [ha])
      omega

section
variable {s : State} {off : Nat} (v : Byte) (hb : s.busy = false)
include hb

theorem regByte_hostWrite_same {r : Reg} {i : Nat} {a : Access} (ha : a = .rw ∨ a = .wo) (hl : locate off = .reg r i a) :
    (s.hostWrite off v).regByte r i = r.written v := by
  rw [hostWrite_reg v hb ha hl]
  obtain ⟨row, hm, rfl, rfl, -, hi⟩ := locate_eq_reg.1 hl
  rw [regByte_setRegByte_same s hm ha i i v hi, if_pos rfl]

variable (h0 : off ≠ 0x000) (h2 : off ≠ 0x002)
include h0 h2

theorem hiddenKept_hostWrite : HiddenKept s (s.hostWrite off v) := by
  obtain ⟨r, i, a, -, -, h⟩ | h | h := hostWrite_idle_cases v hb h0 h2 <;> rw [h]
  · cases r <;> exact .refl s
  · exact .refl s
  · exact .refl s

theorem busy_hostWrite : (s.hostWrite off v).busy = false := by
  obtain ⟨r, i, a, -, -, h⟩ | h | h := hostWrite_idle_cases v hb h0 h2 <;> rw [h]
  · rw [State.busy, (setRegByte_keeps s r i v).2.1]
    exact hb
  · exact hb
  · exact hb

theorem regByte_hostWrite_other {r : Reg} {i : Nat} (hl : ∀ a, locate off ≠ .reg r i a) :
    (s.hostWrite off v).regByte r i = s.regByte r i := by
  obtain ⟨r', j, a, ha, hl', h⟩ | h | h := hostWrite_idle_cases v hb h0 h2 <;> rw [h]
  · by_cases hr : r = r'
    · subst hr
      have hij : i ≠ j := fun hij => hl a (hij ▸ hl')
      obtain ⟨row, hm, rfl, rfl, -, hj⟩ := locate_eq_reg.1 hl'
      rw [regByte_setRegByte_same s hm ha j i v hj, if_neg hij]
    · exact regByte_setRegByte_other s j i v hr
  · cases r <;> rfl

theorem byte_hostWrite_other {off' : Nat} (hne : off' ≠ off) : (s.hostWrite off v).byte off' = s.byte off' := by
  obtain ⟨r, i, a, -, -, h⟩ | h | h := hostWrite_idle_cases v hb h0 h2 <;> rw [h]
  · cases r <;> rfl
  · exact Memory.read_set_other _ _ _ _ hne

/-- Every other offset reads as before. -/
theorem hostRead_hostWrite_other {off' : Nat} (hne : off' ≠ off) :
    (s.hostWrite off v).hostRead off' = s.hostRead off' := by
  rw [hostRead_of_idle (busy_hostWrite v hb h0 h2), hostRead_of_idle hb]
  unfold State.idleRead
  cases hl : locate off' with
  | buffer => exact byte_hostWrite_other v hb h0 h2 hne
  | reserved => rfl
  | reg r i a =>
    have hr := regByte_hostWrite_other v hb h0 h2 (r := r) (i := i) fun a' h => hne (locate_reg_inj hl h)
    cases a <;> simp only [hr]

end

/-- 10_state.md R22, R56: the write-only registers are the four keys. -/
theorem regMap_writeOnly : ∀ row ∈ regMap, row.access = .wo ↔ row.reg ∈ [Reg.key, .sEnc, .sMac1, .sMac2] := by decide

theorem writeOnly_iff_key {off i : Nat} {r : Reg} {a : Access} (hl : locate off = .reg r i a) :
    a = .wo ↔ r ∈ [Reg.key, .sEnc, .sMac1, .sMac2] := by
  obtain ⟨row, hm, rfl, rfl, -, -⟩ := locate_eq_reg.1 hl
  exact regMap_writeOnly row hm

/-- A write-only byte is stored whole. -/
theorem written_of_writeOnly {off i : Nat} {r : Reg} (hl : locate off = .reg r i .wo) (v : Byte) : r.written v = v := by
  have hkey := (writeOnly_iff_key hl).1 rfl
  rw [Reg.written, if_neg (by rintro rfl; simp at hkey), if_neg (by rintro rfl; simp at hkey)]

/-! ### An acknowledgement -/

theorem hostWrite_status (s : State) (v : Byte) : s.hostWrite 0x002 v = s.acknowledge v := by
  simp [State.hostWrite, State.idleWrite, locate_status]

theorem regByte_acknowledge (s : State) (v : Byte) (r : Reg) (i : Nat) (h : r ≠ .status) :
    (s.acknowledge v).regByte r i = s.regByte r i := by
  cases r
  case status => exact absurd rfl h
  all_goals rfl

theorem unchanged_acknowledge (s : State) (v : Byte) : Unchanged [] [.ovr] noStore s (s.acknowledge v) := by
  refine ⟨fun r hr i => ?_, fun f hf => ?_, fun _ _ => rfl, .refl s⟩
  · have hne : r ≠ .status := by
      rintro rfl
      simp at hr
    exact regByte_acknowledge s v r i hne
  · rw [flag_acknowledge]
    cases f <;> simp [Flag.bit] at hf ⊢

/-- Settles O52: a write stores in the one location of its offset, which no other offset shares. -/
theorem hostWriteThenReadFollowsTheAccessClass : Obligations.HostWriteThenReadFollowsTheAccessClass := by
  refine ⟨fun s off v hb _ h0 h2 => ?_, fun s v hb => ?_⟩
  · have hb' := busy_hostWrite v hb h0 h2
    refine ⟨fun r i hl => ?_, fun r i hl => ⟨?_, ?_⟩, fun hl => ?_, fun r i hl => hostWrite_ro v hb hl,
      fun hl => ⟨hostWrite_reserved v hb hl, ?_⟩, fun off' hne => hostRead_hostWrite_other v hb h0 h2 hne,
      fun r i hl => regByte_hostWrite_other v hb h0 h2 hl, hiddenKept_hostWrite v hb h0 h2⟩
    · rw [hostRead_of_idle hb', State.idleRead, hl]
      exact regByte_hostWrite_same v hb (.inl rfl) hl
    · rw [hostRead_of_idle hb', State.idleRead, hl]
    · rw [regByte_hostWrite_same v hb (.inr rfl) hl]
      exact written_of_writeOnly hl v
    · rw [hostRead_of_idle hb', State.idleRead, hl, hostWrite_buffer v hb hl]
      exact Memory.read_set_same _ _ _
    · rw [hostRead_of_idle hb, State.idleRead, hl]
  · refine ⟨_, rfl, ?_⟩
    rw [hostWrite_status]
    exact ⟨done_acknowledge s v, err_acknowledge s v, ovr_acknowledge s v, (busy_acknowledge s v).trans hb,
      established_acknowledge s v, matched_acknowledge s v, defkey_acknowledge s v, rfl, unchanged_acknowledge s v⟩

/-! ### The keys -/

/-- The four keys are the block's, so two states differ only in them when one is the other with four keys of its own. -/
theorem sameButKeys_iff {s t : State} : SameButKeys s t ↔
    ∃ key sEnc sMac1 sMac2, t = { s with key := key, sEnc := sEnc, sMac1 := sMac1, sMac2 := sMac2 } :=
  ⟨fun h => ⟨_, _, _, _, h⟩, fun ⟨_, _, _, _, h⟩ => by subst h; rfl⟩

namespace SameButKeys

variable {s t : State}

theorem regByte (h : SameButKeys s t) (r : Reg) (i : Nat) (hr : r ∉ [Reg.key, .sEnc, .sMac1, .sMac2]) :
    t.regByte r i = s.regByte r i := by
  obtain ⟨k, e, m1, m2, rfl⟩ := sameButKeys_iff.1 h
  cases r
  case key | sEnc | sMac1 | sMac2 => simp at hr
  all_goals rfl

theorem byte (h : SameButKeys s t) (a : Nat) : t.byte a = s.byte a := by
  obtain ⟨k, e, m1, m2, rfl⟩ := sameButKeys_iff.1 h
  rfl

/-- An idle read of a key register returns 0x00, and one of anything else does not depend on the keys. -/
theorem idleRead (h : SameButKeys s t) (off : Nat) : t.idleRead off = s.idleRead off := by
  unfold State.idleRead
  cases hl : locate off with
  | buffer => exact h.byte off
  | reserved => rfl
  | reg r i a =>
    have hkey := writeOnly_iff_key hl
    cases a with
    | wo => rfl
    | rw | ro | issue | w1c => exact h.regByte r i (by simpa using hkey)

theorem hostRead (h : SameButKeys s t) (off : Nat) : t.hostRead off = s.hostRead off := by
  have hidle := h.idleRead off
  obtain ⟨k, e, m1, m2, rfl⟩ := sameButKeys_iff.1 h
  simp only [State.hostRead, hidle]
  rfl

theorem answerRead (h : SameButKeys s t) (off : Nat) : SameButKeys (s.answerRead off) (t.answerRead off) := by
  have hread := h.hostRead off
  obtain ⟨k, e, m1, m2, rfl⟩ := sameButKeys_iff.1 h
  simp only [State.answerRead, hread]
  rfl

theorem setRegByte (h : SameButKeys s t) (r : Reg) (i : Nat) (v : Byte) :
    SameButKeys (s.setRegByte r i v) (t.setRegByte r i v) := by
  obtain ⟨k, e, m1, m2, rfl⟩ := sameButKeys_iff.1 h
  cases r <;> rfl

theorem hostWrite (h : SameButKeys s t) (off : Nat) (v : Byte) :
    SameButKeys (s.hostWrite off v) (t.hostWrite off v) := by
  have hreg := fun r i => h.setRegByte r i v
  obtain ⟨k, e, m1, m2, rfl⟩ := sameButKeys_iff.1 h
  have hbusy : State.busy { s with key := k, sEnc := e, sMac1 := m1, sMac2 := m2 } = s.busy := rfl
  unfold State.hostWrite
  rw [hbusy]
  split
  · rfl
  · unfold State.idleWrite
    cases locate off with
    | buffer | reserved => rfl
    | reg r i a =>
      cases a with
      | rw | wo => exact hreg r i
      | ro | issue | w1c => rfl

/-- Two states that differ only in the keys are at the same place in the host's program and hold the same answers. -/
theorem host_answers (h : SameButKeys s t) : t.host = s.host ∧ t.answers = s.answers := by
  obtain ⟨k, e, m1, m2, rfl⟩ := sameButKeys_iff.1 h
  exact ⟨rfl, rfl⟩

theorem withHost (h : SameButKeys s t) (rest : List HostAccess) :
    SameButKeys { s with host := rest } { t with host := rest } := by
  obtain ⟨k, e, m1, m2, rfl⟩ := sameButKeys_iff.1 h
  rfl

theorem access (h : SameButKeys s t) (a : HostAccess) : SameButKeys (s.access a) (t.access a) := by
  cases a with
  | rd off => exact h.answerRead off
  | wr off v => exact h.hostWrite off v

theorem hostStep {s' : State} (h : SameButKeys s t) (hs : hostStep s = .next s') :
    ∃ t', Machine.hostStep t = .next t' ∧ SameButKeys s' t' := by
  have hh := h.host_answers.1
  unfold Machine.hostStep at hs ⊢
  rw [hh]
  cases hp : s.host with
  | nil =>
    rw [hp] at hs
    cases hs
    exact ⟨t, rfl, h⟩
  | cons a rest =>
    rw [hp] at hs
    dsimp only at hs ⊢
    split at hs
    · rename_i hw
      cases hs
      exact ⟨_, if_pos hw, (h.withHost rest).access a⟩
    · cases a <;> cases hs

end SameButKeys

/-- Settles O56: the key registers are the write-only ones, so what a read returns does not depend on them, and a host write
stores the same byte in both states. -/
theorem hostAccessesNeverRevealTheKeys : Obligations.HostAccessesNeverRevealTheKeys := by
  intro s t h
  refine ⟨h.hostRead, fun s' hs => ?_⟩
  obtain ⟨t', ht, hk⟩ := h.hostStep hs
  exact ⟨t', ht, hk, hk.host_answers.2⟩

end Machine
end Sys2Proof
end

section
/-! The memory window: what a host read returns and that it changes nothing (O54), the order of a 16-bit register's two bytes
(O55), and how far into the buffers an instruction writes (O13). -/

namespace Sys2Proof.Machine

/-! ### Host reads -/

section
variable {s : State} {off : Nat}

/-- 20_memory.md R70: OPC reads as the latched opcode, idle or BUSY. -/
theorem hostRead_opc (s : State) : s.hostRead 0x000 = s.opc := by
  simp [State.hostRead, steadyOffset, State.idleRead, locate_opc, State.regByte, oneByte]

/-- R70: STATUS reads as its current value, idle or BUSY. -/
theorem hostRead_status (s : State) : s.hostRead 0x002 = s.status &&& statusMask := by
  simp [State.hostRead, steadyOffset, State.idleRead, locate_status, State.regByte, oneByte]

theorem steadyOffset_iff : steadyOffset off = true ↔ off = 0x000 ∨ off = 0x002 := by simp [steadyOffset]

theorem hostRead_of_busy (hb : s.busy = true) (hf : ¬ (off = 0x000 ∨ off = 0x002)) :
    s.hostRead off = Config.busyByte s.life s.busyReads := by
  rw [← steadyOffset_iff, Bool.not_eq_true] at hf
  simp [State.hostRead, hb, hf]

theorem idleRead_reg {r : Reg} {i : Nat} {a : Access} (hl : locate off = .reg r i a) :
    s.idleRead off = if a = .wo then 0x00 else s.regByte r i := by
  cases a <;> simp [State.idleRead, hl]

/-- A host read made on a turn of the host: the access is taken, the answer is recorded, and a free byte used is counted.
What is read depends neither on the accesses still to be made nor on the wait. -/
theorem step_read {rest : List HostAccess} (hd : s.completionDue = false) (hh : s.host = .rd off :: rest)
    (ho : off < 0x1000) :
    step s = .next { s with
      host := rest, wait := s.tick.wait, answers := (off, s.hostRead off) :: s.answers,
      busyReads := if s.busy && !steadyOffset off then s.busyReads + 1 else s.busyReads } := by
  have hw : (HostAccess.rd off).wellFormed = true := by simp [HostAccess.wellFormed, Config.windowSize, ho]
  rw [step_of_not_due hd, hostStep, State.tick_host, hh]
  exact if_pos hw

end

/-- Settles O54: what is read follows the offset's location, and the step that reads is a turn of the host. -/
theorem hostReadsHaveNoSideEffect : Obligations.HostReadsHaveNoSideEffect := by
  intro s off ho
  refine ⟨fun _ => ⟨hostRead_opc s, hostRead_status s⟩, fun hb h0 h2 => hostRead_of_busy hb (not_or.2 ⟨h0, h2⟩),
    fun hb hl => ?_, fun r i a hb hl => ?_, fun hb hl => ?_, fun rest hb hh => ?_, fun rest hb hw hh => ?_⟩
  · rw [hostRead_of_idle hb, State.idleRead, locate_buffer off hl]
  · rw [hostRead_of_idle hb, idleRead_reg hl]
  · rw [hostRead_of_idle hb, State.idleRead, hl]
  · have hd : s.completionDue = false := by simp [State.completionDue, hb]
    refine ⟨_, step_read hd hh ho, ?_⟩
    simp [hb]
  · have hd : s.completionDue = false := by simp [State.completionDue, hw]
    refine ⟨_, step_read hd hh ho, ?_⟩
    cases hf : steadyOffset off <;> simp [hb, hf, ← steadyOffset_iff]

/-! ### The bytes of a 16-bit register -/

theorem setHalfByte_low_high (h : Half) (lo hi : Byte) : setHalfByte (setHalfByte h lo 0) hi 1 = mkHalf lo hi := by
  simp [setHalfByte]

/-- Two writes of an idle host to the two bytes of a register, one after the other. -/
theorem hostWrite_low_high {s : State} {r : Reg} {off off' : Nat} (lo hi : Byte) (hb : s.busy = false)
    (hl : locate off = .reg r 0 .rw) (hl' : locate off' = .reg r 1 .rw) :
    (s.hostWrite off lo).hostWrite off' hi = (s.setRegByte r 0 lo).setRegByte r 1 hi := by
  have hb' : (s.setRegByte r 0 lo).busy = false := by
    rw [State.busy, (setRegByte_keeps s r 0 lo).2.1]
    exact hb
  rw [hostWrite_reg lo hb (.inl rfl) hl, hostWrite_reg hi hb' (.inl rfl) hl']

/-- Settles O55: the two writes store the low and the high byte of the number, which make the number. -/
theorem sixteenBitRegistersAreLittleEndian : Obligations.SixteenBitRegistersAreLittleEndian := by
  intro s v hb
  have hv (h : Half) : setHalfByte (setHalfByte h (loByte v) 0) (hiByte v) 1 = v :=
    (setHalfByte_low_high h _ _).trans (mkHalf_loByte_hiByte v)
  refine ⟨?_, ?_, ?_, ?_, ?_, ?_⟩
  · rw [hostWrite_low_high (r := .dlen) _ _ hb rfl rfl]
    exact hv s.dlen
  · rw [hostWrite_low_high (r := .flen) _ _ hb rfl rfl]
    exact hv s.flen
  · rw [hostWrite_low_high (r := .opoff) _ _ hb rfl rfl]
    exact hv s.opoff
  · rw [hostWrite_low_high (r := .oplen) _ _ hb rfl rfl]
    exact hv s.oplen
  · exact hostRead_of_idle hb 0x014
  · exact hostRead_of_idle hb 0x015

/-! ### Where an instruction writes in the buffers -/

theorem State.byte_congr {s t : State} (hm : t.mem = s.mem) (hl : t.life = s.life) (a : Nat) : t.byte a = s.byte a := by
  rw [State.byte, hm, hl, State.byte]

theorem State.life_setAccumulator (s : State) (d : Dir) (b : Block) : (s.setAccumulator d b).life = s.life := by
  cases d <;> rfl

theorem State.life_withFrame (s : State) (scs scblen : Byte) : (s.withFrame scs scblen).life = s.life := by
  unfold State.withFrame
  cases scsHasMac scs
  exacts [rfl, s.life_setAccumulator _ _]

theorem State.life_withParsed (s : State) (y : Layout) : (s.withParsed y).life = s.life := by
  unfold State.withParsed
  cases scsHasMac y.scs
  exacts [rfl, s.life_setAccumulator _ _]

/-- 20_memory.md R66: from `s` to `t` no byte changes but in DBUF below the DLEN of `t`, or in FBUF below the FLEN of `t`. A DLEN
of more than 1024, which an error leaves as it was, does not reach into FBUF. -/
def StoresBelowLengths (s t : State) : Prop :=
  ∀ a, ¬ dbufSpan (min t.dlen.toNat 1024) a → ¬ fbufSpan t.flen.toNat a → t.byte a = s.byte a

namespace StoresBelowLengths

variable {s t u : State}

/-! The bound is about the buffers and their lengths, so no other write matters to it. -/

theorem complete (h : StoresBelowLengths s u) (c : Byte) : StoresBelowLengths s (u.complete c) := h

theorem setMatched (h : StoresBelowLengths s u) (v : Bool) : StoresBelowLengths s (u.setMatched v) := h

theorem withScb (h : StoresBelowLengths s u) (scs scblen : Byte) :
    StoresBelowLengths s { u with scs := scs, scblen := scblen } := h

/-- A completion of a state whose buffers are those of `s`. -/
theorem kept {c : Byte} (hm : u.mem = s.mem := by rfl) (hl : u.life = s.life := by rfl) :
    StoresBelowLengths s (u.complete c) := fun a _ _ => State.byte_congr hm hl a

theorem of_dbuf {i : Nat} {d : Bytes} (hlen : i + d.length ≤ t.dlen.toNat) (hfit : i + d.length ≤ 1024)
    (hm : t.mem = (s.writeDbuf i d).mem := by rfl) (hl : t.life = s.life := by rfl) : StoresBelowLengths s t := by
  intro a ha _
  rw [State.byte_congr hm hl]
  refine State.byte_writeDbuf_outside s i d a ?_
  unfold dbufSpan at ha
  omega

theorem of_fbuf {d : Bytes} (hlen : d.length ≤ t.flen.toNat) (hm : t.mem = (s.writeFbuf 0 d).mem)
    (hl : t.life = s.life) : StoresBelowLengths s t := by
  intro a _ ha
  rw [State.byte_congr hm hl]
  refine State.byte_writeFbuf_outside s 0 d a ?_
  unfold fbufSpan at ha
  omega

theorem of_macSpan {d : Dir} (h : macSpan d s = .next t) : StoresBelowLengths s t := by
  obtain ⟨-, rfl⟩ | ⟨-, -, rfl⟩ | ⟨-, -, rfl⟩ := macSpan_cases h
  · exact .kept
  · exact .kept
  · exact .kept (s.setAccumulator_keeps d _).1 (s.life_setAccumulator d _)

/-- The data cipher's output is no longer than the data, which DLEN bounds. -/
theorem of_cipherData {f : Bytes → Bytes} (hf : ∀ d, (f d).length = 16 * (d.length / 16))
    (h : cipherData f s = .next t) : StoresBelowLengths s t := by
  obtain ⟨e, rfl, -⟩ | ⟨-, -, -, rfl⟩ | ⟨hr, -, -, -, rfl⟩ := cipherData_cases h
  · exact .kept
  · exact .kept
  · rw [← Bool.not_eq_true, dataOutOfRange_iff] at hr
    have hlen : (f s.data).length ≤ s.dlen.toNat := by
      rw [hf, State.length_data]
      omega
    exact .complete (.of_dbuf (i := 0) (d := f s.data) (by simpa using hlen) (by omega)) _

/-- 46_framer.md R240: a built frame is as long as the FLEN stored with it. -/
theorem of_withFrame {scs scblen : Byte} (hb : s.buildError scs scblen = none) :
    StoresBelowLengths s (s.withFrame scs scblen) := by
  obtain ⟨-, hscs, -, hle⟩ := buildError_none hb
  have hflen : (s.withFrame scs scblen).flen.toNat = s.frameLen scs scblen := by
    rw [State.withFrame, BitVec.toNat_ofNat]
    exact Nat.mod_eq_of_lt (by omega)
  refine .of_fbuf (Eq.le ?_) (s.withFrame_keeps scs scblen).1 (s.life_withFrame scs scblen)
  rw [s.length_frame (hscs.imp_right And.right), hflen]

/-- 46_framer.md R250: the received data is no longer than the DLEN stored with it. -/
theorem of_withParsed {y : Layout} (hy : s.parseLayout = .ok y) : StoresBelowLengths s (s.withParsed y) := by
  have hle := parseLayout_data_le hy
  have hlen := s.length_rxData_le y
  have hdlen : (s.withParsed y).dlen.toNat = y.de - y.ds := by
    rw [State.withParsed, BitVec.toNat_ofNat]
    exact Nat.mod_eq_of_lt (by omega)
  exact .of_dbuf (i := 0) (by omega) (by omega) (s.withParsed_keeps y).1 (s.life_withParsed y)

end StoresBelowLengths

/-- Only PAD, the data ciphers and the framer store anything in the buffers, each below the length it leaves. -/
theorem exec_storesBelowLengths {i : Instr} {s t : State} (h : exec i s = .next t) : StoresBelowLengths s t := by
  cases i
  case nop | sreset | aeseKey | aeseEnc | aeseMac1 | aeseMac2 | aesdKey | aesdEnc | aesdMac1 | aesdMac2 | screset | derive |
      crypt | adoptrmac =>
    rw [finish_eq_next.1 h]
    exact .kept
  case crc16 => obtain ⟨-, rfl⟩ | ⟨-, rfl⟩ := execCrc16_cases h <;> exact .kept
  case cksum8 => obtain ⟨-, rfl⟩ | ⟨-, rfl⟩ := execCksum8_cases h <;> exact .kept
  case vcrc16 => obtain ⟨e, rfl, -⟩ | ⟨-, -, c, -, -, -, rfl⟩ := execVcrc16_cases h <;> exact .kept
  case vcksum8 => obtain ⟨e, rfl, -⟩ | ⟨-, -, c, -, -, rfl⟩ := execVcksum8_cases h <;> exact .kept
  case unpad => obtain ⟨-, rfl⟩ | ⟨-, -, rfl⟩ | ⟨-, i, -, rfl⟩ := execUnpad_cases h <;> exact .kept
  case vccrypt => obtain ⟨-, rfl⟩ | ⟨-, rfl⟩ := execVccrypt_cases h <;> exact .kept
  case vscrypt => obtain ⟨-, rfl⟩ | ⟨-, rfl⟩ := execVscrypt_cases h <;> exact .kept
  case macc | macr => exact .of_macSpan h
  case encc | encr => exact .of_cipherData (length_cbcEnc _ _) h
  case decc | decr => exact .of_cipherData (length_cbcDec _ _) h
  case pad =>
    obtain ⟨-, rfl⟩ | ⟨hn, rfl⟩ := execPad_cases h
    · exact .kept
    · have hlen : s.dlen.toNat + (padTail s.dlen.toNat).length = paddedLen s.dlen.toNat := by
        rw [length_padTail, paddedLen]
        omega
      have hfit : paddedLen s.dlen.toNat ≤ 1024 := by
        rw [paddedLen]
        omega
      refine .complete (.of_dbuf ?_ (hlen ▸ hfit)) _
      rw [hlen, BitVec.toNat_ofNat, Nat.mod_eq_of_lt (by omega)]
  case build =>
    obtain ⟨e, -, rfl⟩ | ⟨hb, rfl⟩ := execBuild_cases h
    exacts [.kept, .complete (.of_withFrame hb) _]
  case builda =>
    obtain ⟨e, -, rfl⟩ | ⟨hb, rfl⟩ := execBuilda_cases h
    exacts [.kept, .complete (.withScb (.of_withFrame hb) _ _) _]
  case parse =>
    obtain ⟨e, -, rfl⟩ | ⟨y, hy, -, rfl⟩ | ⟨y, hy, -, rfl⟩ := execParse_cases h
    exacts [.kept, .complete (.setMatched (.of_withParsed hy) _) _, .complete (.setMatched (.of_withParsed hy) _) _]

/-- Settles O13: an index from the new length up lies outside both spans. -/
theorem bufferWritesStayBelowTheNewLengths : Obligations.BufferWritesStayBelowTheNewLengths := by
  intro i s t h
  have hbelow := exec_storesBelowLengths h
  refine ⟨fun k hk hlt => hbelow _ ?_ ?_, fun k hk => hbelow _ ?_ ?_⟩
  all_goals
    simp only [dbufSpan, fbufSpan, Config.dbufBase, Config.fbufBase]
    omega

end Sys2Proof.Machine
end

section
/-! Opcode bytes and SCS types (O1 to O4): the decoder reads exactly the bytes that `opcode` writes, which are the bytes that have
a format's form. -/

namespace Sys2Proof

open Laws

/-! ### Opcode bytes -/

theorem Instr.mem_all (i : Instr) : i ∈ Instr.all := by cases i <;> decide

theorem encodingRoundTrip (i : Instr) : EncodingRoundTrip.Statement i := by
  cases i
  exacts [EncodingRoundTrip.nop, EncodingRoundTrip.sreset, EncodingRoundTrip.crc16, EncodingRoundTrip.cksum8,
    EncodingRoundTrip.vcrc16, EncodingRoundTrip.vcksum8, EncodingRoundTrip.aeseKey, EncodingRoundTrip.aeseEnc,
    EncodingRoundTrip.aeseMac1, EncodingRoundTrip.aeseMac2, EncodingRoundTrip.aesdKey, EncodingRoundTrip.aesdEnc,
    EncodingRoundTrip.aesdMac1, EncodingRoundTrip.aesdMac2, EncodingRoundTrip.pad, EncodingRoundTrip.unpad,
    EncodingRoundTrip.screset, EncodingRoundTrip.derive, EncodingRoundTrip.crypt, EncodingRoundTrip.vccrypt,
    EncodingRoundTrip.vscrypt, EncodingRoundTrip.adoptrmac, EncodingRoundTrip.macc, EncodingRoundTrip.macr,
    EncodingRoundTrip.encc, EncodingRoundTrip.encr, EncodingRoundTrip.decc, EncodingRoundTrip.decr,
    EncodingRoundTrip.build, EncodingRoundTrip.builda, EncodingRoundTrip.parse]

@[simp] theorem opcodeWellFormed_opcode (i : Instr) : opcodeWellFormed (opcode i) = true := (encodingRoundTrip i).1

@[simp] theorem decodeByte_opcode (i : Instr) : decodeByte (opcode i) = some i := (encodingRoundTrip i).2.1

theorem opcode_injective : Function.Injective opcode := fun i j h => by
  have hd := congrArg decodeByte h
  simpa using hd

/-- 30_encoding.md R80: a byte is its group and its function. -/
theorem Byte.eq_of_group_function {a b : Byte} (hg : a.toNat / 16 = b.toNat / 16) (hf : a.toNat % 16 = b.toNat % 16) :
    a = b :=
  BitVec.eq_of_toNat_eq (by omega)

theorem opcode_of_decodeByte {b : Byte} {i : Instr} (h : decodeByte b = some i) : opcode i = b := by
  unfold decodeByte at h
  split at h <;> cases h
  all_goals exact Byte.eq_of_group_function (.symm ‹_›) (.symm ‹_›)

/-- 30_encoding.md R84: the decoder reads the opcode bytes and no others. -/
theorem decodeByte_eq_some {b : Byte} {i : Instr} : decodeByte b = some i ↔ opcode i = b :=
  ⟨opcode_of_decodeByte, fun h => h ▸ decodeByte_opcode i⟩

theorem isSome_decodeByte {b : Byte} : (decodeByte b).isSome = true ↔ ∃ i, opcode i = b := by
  simp only [Option.isSome_iff_exists, decodeByte_eq_some]

theorem decode_cons_eq_ok {b : Byte} {rest r : Bytes} {i : Instr} :
    decode (b :: rest) = .ok (i, r) ↔ opcode i = b ∧ r = rest := by
  rw [← decodeByte_eq_some, decode]
  cases decodeByte b <;> simp [eq_comm]

theorem decode_encode_append (i : Instr) (rest : Bytes) : decode (encode i ++ rest) = .ok (i, rest) :=
  decode_cons_eq_ok.2 ⟨rfl, rfl⟩

/-- 30_encoding.md R83: the function values that a group's format allows all stand in the opcode map. -/
theorem isSome_decodeByte_of_wellFormed {b : Byte} (h : opcodeWellFormed b = true) : (decodeByte b).isSome = true := by
  unfold opcodeWellFormed at h
  unfold decodeByte
  generalize b.toNat / 16 = g at h ⊢
  generalize b.toNat % 16 = f at h ⊢
  obtain _ | _ | _ | _ | _ | _ | _ | _ | _ | g := g
  case succ => cases h
  all_goals
    simp only [formatOf, functionWellFormed, formatNCount, decide_eq_true_eq] at h
    interval_cases f <;> rfl

theorem isSome_decodeByte_eq (b : Byte) : (decodeByte b).isSome = opcodeWellFormed b := by
  refine Bool.eq_iff_iff.2 ⟨fun h => ?_, isSome_decodeByte_of_wellFormed⟩
  obtain ⟨i, rfl⟩ := isSome_decodeByte.1 h
  exact opcodeWellFormed_opcode i

/-! ### How many bytes decode -/

/-- `opcode` is injective, so each instruction accounts for exactly one of the bytes that decode. -/
theorem filter_isSome_decodeByte_perm :
    ((List.range 256).filter fun n => (decodeByte (BitVec.ofNat 8 n)).isSome).Perm
      (Instr.all.map fun i => (opcode i).toNat) := by
  have hinj : Function.Injective fun i => (opcode i).toNat := fun _ _ h => opcode_injective (BitVec.eq_of_toNat_eq h)
  refine (List.perm_ext_iff_of_nodup (List.nodup_range.filter _) ((by decide : Instr.all.Nodup).map hinj)).2 fun n => ?_
  simp only [List.mem_filter, List.mem_range, isSome_decodeByte, List.mem_map, Instr.mem_all, true_and]
  constructor
  · rintro ⟨hn, i, hi⟩
    exact ⟨i, by rw [hi, BitVec.toNat_ofNat]; omega⟩
  · rintro ⟨i, rfl⟩
    exact ⟨(opcode i).isLt, i, by simp⟩

/-- 30_encoding.md R84: 31 of the 256 bytes decode. -/
theorem length_filter_isSome_decodeByte :
    ((List.range 256).filter fun n => (decodeByte (BitVec.ofNat 8 n)).isSome).length = 31 :=
  filter_isSome_decodeByte_perm.length_eq

/-! ### SCS types -/

namespace Machine

theorem scsValid_iff {scs : Byte} : scsValid scs = true ↔ 0x11 ≤ scs.toNat ∧ scs.toNat ≤ 0x18 := by simp [scsValid]

theorem scsHasMac_iff {scs : Byte} : scsHasMac scs = true ↔ 0x15 ≤ scs.toNat ∧ scs.toNat ≤ 0x18 := by simp [scsHasMac]

theorem scsEncrypts_iff {scs : Byte} : scsEncrypts scs = true ↔ scs = 0x17 ∨ scs = 0x18 := by simp [scsEncrypts]

end Machine

/-! ### The obligations -/

/-- Settles O1: each byte is the encoding of its instruction. -/
theorem opcodeBytesDecodeToTheirInstructions : Obligations.OpcodeBytesDecodeToTheirInstructions :=
  ⟨decode_encode_append .nop [], decode_encode_append .sreset [], decode_encode_append .vcksum8 [],
    decode_encode_append .aesdMac1 [], decode_encode_append .unpad [], decode_encode_append .vscrypt [],
    decode_encode_append .macr [], decode_encode_append .decr [], decode_encode_append .builda [],
    decode_encode_append .parse []⟩

/-- Settles O2: a byte decodes to an instruction just when it is that instruction's opcode. -/
theorem decodeAndEncodeAgree : Obligations.DecodeAndEncodeAgree := by
  refine ⟨decode_encode_append, fun b rest r i h => ?_⟩
  obtain ⟨rfl, hr⟩ := decode_cons_eq_ok.1 h
  exact ⟨rfl, hr⟩

/-- Settles O3: the bytes that decode are the 31 opcodes, which leaves 225 of the 256. -/
theorem undefinedOpcodesAreThoseOfNoFormat : Obligations.UndefinedOpcodesAreThoseOfNoFormat := by
  refine ⟨isSome_decodeByte_eq, ?_⟩
  have hsum := List.length_eq_length_filter_add (l := List.range 256) fun n => (decodeByte (BitVec.ofNat 8 n)).isSome
  simp only [List.length_range, length_filter_isSome_decodeByte, Option.not_isSome] at hsum
  omega

/-- Settles O4: on bytes, a type is in the list just when its number is in the range. -/
theorem scsTypesMeanWhatTheTableSays : Obligations.ScsTypesMeanWhatTheTableSays := by
  refine ⟨fun scs => ?_, fun scs => ?_, fun scs => ?_, rfl, rfl, rfl, rfl⟩
  · simp only [Machine.scsValid_iff, List.mem_cons, List.not_mem_nil, or_false]
    bv_omega
  · simp only [Machine.scsHasMac_iff, List.mem_cons, List.not_mem_nil, or_false]
    bv_omega
  · simp only [Machine.scsEncrypts_iff, List.mem_cons, List.not_mem_nil, or_false]

end Sys2Proof
end

section
/-! The block's control: what issuing an instruction changes (O6), SRESET (O16) and NOP (O15). -/

namespace Sys2Proof.Machine

/-! ### Issuing an instruction -/

section
variable (s : State) (v : Byte)

/-- An issue changes no register but OPC and STATUS. -/
theorem regByte_issue {r : Reg} (hopc : r ≠ .opc) (hstatus : r ≠ .status) (i : Nat) :
    (s.issue v).regByte r i = s.regByte r i := by
  cases r
  case opc => exact absurd rfl hopc
  case status => exact absurd rfl hstatus
  all_goals rfl

/-- An issue changes no flag but BUSY and DONE. -/
theorem flag_issue {f : Flag} (hbusy : f ≠ .busy) (hdone : f ≠ .done) : (s.issue v).flag f = s.flag f := by
  have hbit0 : f.bit ≠ 0 := fun h => hbusy (Flag.bit_inj (g := .busy) h)
  have hbit1 : f.bit ≠ 1 := fun h => hdone (Flag.bit_inj (g := .done) h)
  rw [State.flag_eq, State.flag_eq, State.issue_status, getLsbD_setBit _ _ _ _ f.bit_lt (by decide), if_neg hbit1,
    getLsbD_setBit _ _ _ _ f.bit_lt (by decide), if_neg hbit0]

/-- 60_exceptions.md R285: with DONE at 0 the IRQ output is low. -/
theorem irq_issue : (s.issue v).irq = false := by rw [State.irq, done_issue, Bool.false_and]

/-- 40_control.md R110: the wait and its entry of `latencies` set aside, an issue writes OPC, BUSY and DONE only. -/
theorem unchanged_issue :
    Unchanged [.opc] [] noStore s { s.issue v with wait := s.wait, latencies := s.latencies } := by
  refine ⟨fun r hr i => ?_, fun f hf => ?_, fun _ _ => rfl, .refl s⟩
  · simp only [List.mem_cons, not_or] at hr
    obtain ⟨hstatus, -, hopc, -⟩ := hr
    exact regByte_issue s v hopc hstatus i
  · simp only [List.mem_cons, not_or] at hf
    obtain ⟨hbusy, hdone, -⟩ := hf
    exact flag_issue s v hbusy hdone

end

section
variable {s : State} (hb : s.busy = false)
include hb

theorem tick_of_idle : s.tick = s := by simp [State.tick, hb]

theorem completionDue_of_idle : s.completionDue = false := by simp [State.completionDue, hb]

/-- While the block is idle, a step makes the host's next write. -/
theorem step_write_of_idle {off : Nat} {v : Byte} {rest : List HostAccess} (hh : s.host = .wr off v :: rest)
    (ho : off < 0x1000) : step s = .next (State.hostWrite { s with host := rest } off v) := by
  have hw : (HostAccess.wr off v).wellFormed = true := by simp [HostAccess.wellFormed, Config.windowSize, ho]
  rw [step_of_not_due (completionDue_of_idle hb), tick_of_idle hb, hostStep, hh]
  exact if_pos hw

/-- R110: an idle block accepts a write to OPC. -/
theorem hostWrite_opc_of_idle (v : Byte) : s.hostWrite 0x000 v = s.issue v := by
  rw [hostWrite_of_idle v hb, State.idleWrite, locate_opc]

end

/-- Settles O6: the step is the host's write to OPC, which an idle block takes as an issue. -/
theorem idleOpcWriteIssues : Obligations.IdleOpcWriteIssues := by
  intro s v rest hb hh
  have hstep : step s = .next (State.issue { s with host := rest } v) :=
    (step_write_of_idle hb hh (by decide)).trans
      (congrArg _ (hostWrite_opc_of_idle (s := { s with host := rest }) hb v))
  have herr : (s.issue v).err = s.err := flag_issue s v (f := .err) (by decide) (by decide)
  exact ⟨_, hstep, rfl, busy_issue _ v, done_issue _ v, irq_issue _ v, rfl, rfl, rfl, herr, rfl, unchanged_issue s v⟩

/-! ### SRESET and NOP -/

/-- 40_control.md R113: a soft reset gives every register but OPC its reset value. -/
theorem regByte_softReset (s : State) {r : Reg} (hopc : r ≠ .opc) (i : Nat) :
    s.softReset.regByte r i = State.reset.regByte r i := by
  cases r
  case opc => exact absurd rfl hopc
  all_goals rfl

/-- R113: of the STATUS bits, a soft reset's completion sets DONE alone. -/
theorem status_complete_softReset (s : State) : (s.softReset.complete 0x00).status = 0x02 := by
  have herr : s.softReset.err = State.reset.err := rfl
  rw [State.complete_status, State.softReset_status, herr]
  decide

/-- R285: a soft reset leaves IRQ_EN at 0, so its completion does not raise the IRQ output. -/
theorem irq_complete_softReset (s : State) : (s.softReset.complete 0x00).irq = false := by
  have hirqEn : (s.softReset.complete 0x00).irqEn = false := by
    rw [State.irqEn, State.complete_ctrl, State.softReset_ctrl]
    decide
  rw [State.irq, hirqEn, Bool.and_false]

/-- Settles O16: SRESET is a soft reset and its completion, which writes STATUS, and ERRCODE with its reset value. -/
theorem sresetClearsTheRegisters : Obligations.SresetClearsTheRegisters := by
  intro s
  refine ⟨s.softReset.complete 0x00, rfl, fun r hopc hstatus i => ?_, rfl, rfl, rfl, status_complete_softReset s, rfl,
    irq_complete_softReset s, fun _ => rfl, .refl s⟩
  by_cases herr : r = .errcode
  · subst herr
    rfl
  · rw [State.regByte_complete _ _ _ _ (by simp [hstatus, herr]), regByte_softReset s hopc]

/-- Settles O15: NOP is a completion and nothing else. -/
theorem nopOnlyCompletes : Obligations.NopOnlyCompletes := fun s =>
  ⟨s.complete 0x00, rfl, succeeds_complete s s rfl, (Unchanged.refl _ _ _ s).complete _⟩

end Sys2Proof.Machine
end

section
/-! The CRC-16 and checksum unit (O17 to O23). The FCS of a string, as CRC-16 or as checksum, tells any two strings apart that
differ in one byte, so a span that ends in its FCS no longer does so after one of its bytes is changed. -/

namespace Sys2Proof.Machine

/-! ### The CRC register -/

/-- 41_crc.md R120: the bit shifted out of the register comes back as bit 0, the lowest of 0x1021. -/
theorem getLsbD_zero_crcShift (c : Half) : (crcShift c).getLsbD 0 = c.getLsbD 15 := by
  unfold crcShift
  split <;> simp_all

theorem crcShift_injective : Function.Injective crcShift := by
  intro a b h
  have htop : a.getLsbD 15 = b.getLsbD 15 := by rw [← getLsbD_zero_crcShift, h, getLsbD_zero_crcShift]
  have hlow : a <<< 1 = b <<< 1 := by
    simp only [crcShift, htop] at h
    split at h
    · exact (BitVec.xor_left_inj _).1 h
    · exact h
  apply BitVec.eq_of_getLsbD_eq
  intro i hi
  by_cases h15 : i = 15
  · rw [h15, htop]
  · have hbit := congrArg (BitVec.getLsbD · (i + 1)) hlow
    simpa [← BitVec.getLsbD_eq_getElem, hi, show i + 1 < 16 by omega] using hbit

theorem crcShifts_injective (n : Nat) : Function.Injective (crcShifts · n) := by
  induction n with
  | zero => exact Function.injective_id
  | succ n ih => exact crcShift_injective.comp ih

/-- R120's eight shifts as a loop. -/
theorem crcShifts_eq_foldl (c : Half) (n : Nat) : crcShifts c n = (List.range n).foldl (fun c _ => crcShift c) c := by
  induction n with
  | zero => rfl
  | succ n ih => rw [List.range_succ, List.foldl_append, ← ih]; rfl

theorem crcByte_left_injective (b : Byte) : Function.Injective (crcByte · b) := fun _ _ h =>
  (BitVec.xor_left_inj _).1 (crcShifts_injective 8 h)

theorem crcByte_right_injective (c : Half) : Function.Injective (crcByte c) := by
  intro a b h
  have hshift : a.setWidth 16 <<< 8 = b.setWidth 16 <<< 8 := (BitVec.xor_right_inj _).1 (crcShifts_injective 8 h)
  apply BitVec.eq_of_getLsbD_eq
  intro i hi
  have hbit := congrArg (BitVec.getLsbD · (i + 8)) hshift
  simpa [show i + 8 < 16 by omega, show i < 16 by omega] using hbit

/-- After the same string, two registers are equal only if they were before it. -/
theorem crcFrom_injective (bs : Bytes) : Function.Injective (crcFrom · bs) := by
  induction bs with
  | nil => exact Function.injective_id
  | cons b bs ih => exact ih.comp (crcByte_left_injective b)

theorem crc16_append_singleton (b : Bytes) (x : Byte) : crc16 (b ++ [x]) = crcByte (crc16 b) x := crcFrom_append _ b [x]

/-! ### One byte changed -/

theorem crcFrom_set_ne (c : Half) {b : Bytes} {k : Nat} {v : Byte} (hk : k < b.length) (hv : v ≠ b[k]) :
    crcFrom c (b.set k v) ≠ crcFrom c b := by
  induction b generalizing c k with
  | nil => simp at hk
  | cons x xs ih =>
    cases k with
    | zero => exact fun h => hv (crcByte_right_injective c (crcFrom_injective xs h))
    | succ k => exact ih (crcByte c x) (by simpa using hk) hv

theorem byteSum_set {b : Bytes} {k : Nat} (v : Byte) (hk : k < b.length) :
    byteSum (b.set k v) + b[k].toNat = byteSum b + v.toNat := by
  induction b generalizing k with
  | nil => simp at hk
  | cons x xs ih =>
    cases k with
    | zero => simp [byteSum]; omega
    | succ k =>
      have := ih (k := k) (by simpa using hk)
      simp [byteSum]
      omega

theorem toNat_cks8 (b : Bytes) : (cks8 b).toNat = (256 - byteSum b % 256) % 256 := by simp [cks8]

/-- R121: the checksum is the byte that makes the sum 0 mod 256. -/
theorem eq_cks8_iff (b : Bytes) (x : Byte) : x = cks8 b ↔ (byteSum b + x.toNat) % 256 = 0 := by
  rw [← BitVec.toNat_inj, toNat_cks8]
  have := x.isLt
  omega

theorem sum_append_singleton_mod_iff (b : Bytes) (x : Byte) : ((b ++ [x]).map BitVec.toNat).sum % 256 = 0 ↔ x = cks8 b := by
  rw [eq_cks8_iff, ← byteSum_eq_sum, byteSum_append]
  simp [byteSum]

theorem cks8_set_ne {b : Bytes} {k : Nat} {v : Byte} (hk : k < b.length) (hv : v ≠ b[k]) : cks8 (b.set k v) ≠ cks8 b := by
  intro h
  have hset := byteSum_set v hk
  have hcks := congrArg BitVec.toNat h
  rw [toNat_cks8, toNat_cks8] at hcks
  have := v.isLt
  have := b[k].isLt
  refine hv (BitVec.eq_of_toNat_eq ?_)
  omega

/-! ### A string followed by its FCS -/

theorem half_ext {a b : Half} (hlo : loByte a = loByte b) (hhi : hiByte a = hiByte b) : a = b := by
  rw [← mkHalf_loByte_hiByte a, hlo, hhi, mkHalf_loByte_hiByte]

@[simp] theorem length_wireFcs (crc : Bool) (f : Bytes) : (wireFcs crc f).length = fcsLen crc := by cases crc <;> rfl

theorem wireFcs_set_ne (crc : Bool) {f : Bytes} {k : Nat} {v : Byte} (hk : k < f.length) (hv : v ≠ f[k]) :
    wireFcs crc (f.set k v) ≠ wireFcs crc f := by
  intro h
  cases crc with
  | true =>
    obtain ⟨hlo, hhi⟩ : loByte (crc16 (f.set k v)) = loByte (crc16 f) ∧ hiByte (crc16 (f.set k v)) = hiByte (crc16 f) := by
      simpa [wireFcs] using h
    exact crcFrom_set_ne _ hk hv (half_ext hlo hhi)
  | false => exact cks8_set_ne hk hv (List.singleton_inj.1 h)

/-- R126: a string followed by its FCS no longer ends in its FCS once a byte of either is changed. The string and the FCS part
at the same place before and after, so a change of the string would need equal FCS values, and a change of the FCS none at all. -/
theorem set_append_wireFcs_ne (crc : Bool) {f f' : Bytes} {k : Nat} {v : Byte} (hk : k < (f ++ wireFcs crc f).length)
    (hv : v ≠ (f ++ wireFcs crc f)[k]) : (f ++ wireFcs crc f).set k v ≠ f' ++ wireFcs crc f' := by
  intro h
  by_cases hbody : k < f.length
  · rw [List.set_append_left _ _ hbody] at h
    obtain ⟨rfl, hfcs⟩ := List.append_inj' h (by simp)
    rw [List.getElem_append_left hbody] at hv
    exact wireFcs_set_ne crc hbody hv hfcs.symm
  · rw [List.set_append_right _ _ (by omega)] at h
    obtain ⟨rfl, hfcs⟩ := List.append_inj' h (by simp)
    rw [List.getElem_append_right (by omega)] at hv
    refine hv ?_
    rw [← List.getElem_set_self (l := wireFcs crc f) (i := k - f.length) (a := v) (by simp at hk ⊢; omega)]
    simp only [hfcs]

/-! ### The span in FBUF -/

theorem State.fbufByte_writeFbuf_byte (s : State) (i j : Nat) (v : Byte) :
    (s.writeFbuf i [v]).fbufByte j = if j = i then v else s.fbufByte j :=
  (Memory.read_set s.mem _ _ v).trans (if_congr Nat.add_left_cancel_iff rfl rfl)

/-- A byte of the span stored: the span with that byte replaced. -/
theorem State.span_writeFbuf_byte (s : State) (k : Nat) (v : Byte) :
    (s.writeFbuf (s.opoff.toNat + k) [v]).span = s.span.set k v := by
  apply List.ext_getElem (by simp [State.span])
  intro j hj hj'
  simp only [State.span, List.getElem_set, State.getElem_fbuf, State.writeFbuf_opoff, State.fbufByte_writeFbuf_byte,
    Nat.add_left_cancel_iff, eq_comm]

@[simp] theorem State.length_span (s : State) : s.span.length = s.oplen.toNat := s.length_fbuf _ _

theorem State.fbuf_one (s : State) (i : Nat) : s.fbuf i 1 = [s.fbufByte i] := rfl

theorem State.fbuf_two (s : State) (i : Nat) : s.fbuf i 2 = [s.fbufByte i, s.fbufByte (i + 1)] := rfl

/-- The span is its body and a trailer of `n` bytes. -/
theorem State.span_eq_append (s : State) {n : Nat} (hn : n ≤ s.oplen.toNat) :
    s.span = s.fbuf s.opoff.toNat (s.oplen.toNat - n) ++ s.fbuf (s.opoff.toNat + (s.oplen.toNat - n)) n := by
  rw [← State.fbuf_add, Nat.sub_add_cancel hn]; rfl

/-- A span that ends in its FCS is that much longer than its body. -/
theorem oplen_of_span_eq {s : State} {crc : Bool} {body : Bytes} (h : s.span = body ++ wireFcs crc body) :
    s.oplen.toNat = body.length + fcsLen crc := by
  simpa using congrArg List.length h

/-! ### The four instructions -/

/-- The two FCS instructions that compute: CRC16 and CKSUM8 (30_encoding.md R81, format C with V = 0). -/
def fcsCompute (crc : Bool) : Instr := if crc then .crc16 else .cksum8

/-- The two FCS instructions that verify: VCRC16 and VCKSUM8 (format C with V = 1). -/
def fcsVerify (crc : Bool) : Instr := if crc then .vcrc16 else .vcksum8

/-- What the FCS register takes: the CRC-16, or the checksum zero extended. -/
def fcsValue (crc : Bool) (f : Bytes) : Half := if crc then crc16 f else (cks8 f).setWidth 16

section
variable (s : State) (crc : Bool)

theorem unchanged_withFcs (c : Half) (flags : List Flag) : Unchanged [.fcs] flags noStore s { s with fcs := c } := by
  refine ⟨fun r hr i => ?_, fun f _ => ?_, fun _ _ => rfl, .refl s⟩
  · cases r
    case fcs => simp at hr
    all_goals rfl
  · cases f <;> rfl

theorem spanOutOfRange_eq_false (hfit : s.opoff.toNat + s.oplen.toNat ≤ 2048) : s.spanOutOfRange = false := by
  rw [← Bool.not_eq_true, spanOutOfRange_iff]
  omega

/-- 41_crc.md R122, R123. -/
theorem exec_fcsCompute : exec (fcsCompute crc) s =
    if s.spanOutOfRange then raiseError .range s else finish { s with fcs := fcsValue crc s.span } := by
  cases crc <;> rfl

theorem exec_fcsCompute_writesFcs (hfit : s.opoff.toNat + s.oplen.toNat ≤ 2048) : ∃ t, exec (fcsCompute crc) s = .next t ∧
    t.fcs = fcsValue crc s.span ∧ Succeeds s t ∧ Unchanged [.fcs] [] noStore s t := by
  rw [exec_fcsCompute, spanOutOfRange_eq_false s hfit]
  exact ⟨_, rfl, rfl, succeeds_complete s _ rfl, (unchanged_withFcs s _ []).complete _⟩

theorem exec_fcsCompute_range (hout : 2048 < s.opoff.toNat + s.oplen.toNat) : ∃ t, exec (fcsCompute crc) s = .next t ∧
    FailsCleanly .range s t := by
  rw [exec_fcsCompute, (spanOutOfRange_iff s).2 hout]
  exact ⟨_, rfl, failsCleanly_raise .range s⟩

/-- R124, R125: the FCS of the span's body is compared with its trailer. -/
theorem exec_fcsVerify : exec (fcsVerify crc) s =
    if s.spanOutOfRange then raiseMatchError .range s
    else if s.oplen.toNat < fcsLen crc then raiseMatchError .length s
    else if s.fbuf (s.opoff.toNat + (s.oplen.toNat - fcsLen crc)) (fcsLen crc) =
        wireFcs crc (s.fbuf s.opoff.toNat (s.oplen.toNat - fcsLen crc)) then
      finish ({ s with fcs := fcsValue crc (s.fbuf s.opoff.toNat (s.oplen.toNat - fcsLen crc)) }.setMatched true)
    else raiseMatchError .checksum s := by
  cases crc with
  | true =>
    change execVcrc16 s = _
    by_cases hlen : s.oplen.toNat < 2
    · simp only [execVcrc16, fcsLen, hlen, if_true]
    · have hlow : s.opoff.toNat + s.oplen.toNat - 2 = s.opoff.toNat + (s.oplen.toNat - 2) := by omega
      have hhigh : s.opoff.toNat + s.oplen.toNat - 1 = s.opoff.toNat + (s.oplen.toNat - 2) + 1 := by omega
      simp only [execVcrc16, fcsLen, wireFcs, fcsValue, if_true, State.fbuf_two, hlow, hhigh, List.cons.injEq, and_true,
        ne_eq, ← not_and_or, ite_not]
  | false =>
    change execVcksum8 s = _
    by_cases hlen : s.oplen.toNat < 1
    · simp only [execVcksum8, fcsLen, hlen, if_true, Bool.false_eq_true, if_false]
    · have hlast : s.opoff.toNat + s.oplen.toNat - 1 = s.opoff.toNat + (s.oplen.toNat - 1) := by omega
      simp only [execVcksum8, fcsLen, wireFcs, fcsValue, Bool.false_eq_true, if_false, State.fbuf_one, hlast,
        List.cons.injEq, and_true, ne_eq, ite_not]

theorem exec_fcsVerify_range (hout : 2048 < s.opoff.toNat + s.oplen.toNat) :
    ∃ t, exec (fcsVerify crc) s = .next t ∧ FailsUnmatched .range s t := by
  rw [exec_fcsVerify, (spanOutOfRange_iff s).2 hout]
  exact ⟨_, rfl, failsUnmatched_raise .range s⟩

section
variable (hfit : s.opoff.toNat + s.oplen.toNat ≤ 2048)
include hfit

theorem exec_fcsVerify_length (hlen : s.oplen.toNat < fcsLen crc) :
    ∃ t, exec (fcsVerify crc) s = .next t ∧ FailsUnmatched .length s t := by
  rw [exec_fcsVerify, spanOutOfRange_eq_false s hfit, if_neg Bool.false_ne_true, if_pos hlen]
  exact ⟨_, rfl, failsUnmatched_raise .length s⟩

theorem exec_fcsVerify_accepts {body : Bytes} (hspan : s.span = body ++ wireFcs crc body) :
    ∃ t, exec (fcsVerify crc) s = .next t ∧ t.fcs = fcsValue crc body ∧ t.matched = true ∧ Succeeds s t ∧
      Unchanged [.fcs] [.matched] noStore s t := by
  have hlen : fcsLen crc ≤ s.oplen.toNat := by simp [oplen_of_span_eq hspan]
  obtain ⟨hbody, hfcs⟩ := List.append_inj' ((s.span_eq_append hlen).symm.trans hspan) (by simp)
  rw [exec_fcsVerify, spanOutOfRange_eq_false s hfit, if_neg Bool.false_ne_true, if_neg (by omega), hbody, if_pos hfcs]
  exact ⟨_, rfl, rfl, by simp, succeeds_complete s _ (State.err_setStatusBit _ _ _ (by decide)),
    ((unchanged_withFcs s _ _).setStatusBit .matched true (by simp)).complete _⟩

theorem exec_fcsVerify_checksum (hlen : fcsLen crc ≤ s.oplen.toNat) (hspan : ∀ body, s.span ≠ body ++ wireFcs crc body) :
    ∃ t, exec (fcsVerify crc) s = .next t ∧ FailsUnmatched .checksum s t := by
  have hfcs : s.fbuf (s.opoff.toNat + (s.oplen.toNat - fcsLen crc)) (fcsLen crc) ≠
      wireFcs crc (s.fbuf s.opoff.toNat (s.oplen.toNat - fcsLen crc)) := fun h =>
    hspan _ ((s.span_eq_append hlen).trans (congrArg _ h))
  rw [exec_fcsVerify, spanOutOfRange_eq_false s hfit, if_neg Bool.false_ne_true, if_neg (by omega), if_neg hfcs]
  exact ⟨_, rfl, failsUnmatched_raise .checksum s⟩

end

end

/-- R124, R125: only a span in range that ends in its FCS is accepted. -/
theorem span_of_exec_fcsVerify {s t : State} {crc : Bool} (h : exec (fcsVerify crc) s = .next t) (hok : t.errcode = 0x00) :
    s.opoff.toNat + s.oplen.toNat ≤ 2048 ∧ ∃ body, s.span = body ++ wireFcs crc body := by
  have hno : ∀ e : ErrCode, ¬ ∃ u, exec (fcsVerify crc) s = .next u ∧ FailsUnmatched e s u := by
    rintro e ⟨u, hu, ⟨hcode, -⟩, -⟩
    obtain rfl : t = u := by simpa [h] using hu
    exact e.toByte_ne_zero (hcode.symm.trans hok)
  have hfit : s.opoff.toNat + s.oplen.toNat ≤ 2048 := Nat.le_of_not_lt fun hout =>
    hno _ (exec_fcsVerify_range s crc hout)
  have hlen : fcsLen crc ≤ s.oplen.toNat := Nat.le_of_not_lt fun hlt => hno _ (exec_fcsVerify_length s crc hfit hlt)
  refine ⟨hfit, ?_⟩
  by_contra hspan
  exact hno _ (exec_fcsVerify_checksum s crc hfit hlen (not_exists.1 hspan))

/-- R126, for both instructions that verify. -/
theorem exec_fcsVerify_oneByteChanged {s t : State} {crc : Bool} {k : Nat} {v : Byte}
    (h : exec (fcsVerify crc) s = .next t) (hok : t.errcode = 0x00) (hk : k < s.oplen.toNat)
    (hv : v ≠ s.fbufByte (s.opoff.toNat + k)) :
    ∃ u, exec (fcsVerify crc) (s.writeFbuf (s.opoff.toNat + k) [v]) = .next u ∧
      FailsUnmatched .checksum (s.writeFbuf (s.opoff.toNat + k) [v]) u := by
  obtain ⟨hfit, body, hspan⟩ := span_of_exec_fcsVerify h hok
  have hlen := oplen_of_span_eq hspan
  have hbyte : s.span[k]'(by simpa using hk) = s.fbufByte (s.opoff.toNat + k) := s.getElem_fbuf _ _ _ _
  refine exec_fcsVerify_checksum _ crc hfit (by simp [hlen]) fun f' => ?_
  rw [State.span_writeFbuf_byte, hspan]
  refine set_append_wireFcs_ne crc (by simpa [hlen] using hk) ?_
  simpa only [← hspan, hbyte] using hv

/-! ### The obligations -/

/-- Settles O18: the model's exact sum is the sum of the bytes' values, and the checksum is the byte that completes it. -/
theorem cks8IsTheTwosComplementOfTheSum : Obligations.Cks8IsTheTwosComplementOfTheSum := by
  refine ⟨fun b => ?_, fun b => ?_, by decide, by decide⟩
  · rw [toNat_cks8, byteSum_eq_sum]
  · rw [← byteSum_eq_sum]
    exact (eq_cks8_iff b _).1 rfl

/-- Settles O19: CRC16 is the computing instruction for the CRC-16. -/
theorem crc16WritesFcs : Obligations.Crc16WritesFcs := fun s =>
  ⟨exec_fcsCompute_writesFcs s true, exec_fcsCompute_range s true⟩

/-- Settles O20: CKSUM8 is the computing instruction for the checksum. -/
theorem cksum8WritesFcs : Obligations.Cksum8WritesFcs := fun s =>
  ⟨exec_fcsCompute_writesFcs s false, exec_fcsCompute_range s false⟩

/-- Settles O21: VCRC16 is the verifying instruction for the CRC-16. -/
theorem vcrc16ChecksTheTrailingCrc : Obligations.Vcrc16ChecksTheTrailingCrc := fun s =>
  ⟨exec_fcsVerify_range s true, exec_fcsVerify_length s true, fun hfit _ hspan => exec_fcsVerify_accepts s true hfit hspan,
    exec_fcsVerify_checksum s true⟩

/-- Settles O22: VCKSUM8 is the verifying instruction for the checksum, and a non-empty span sums to 0 mod 256 exactly when its
last byte is the checksum of the others. -/
theorem vcksum8ChecksTheTrailingChecksum : Obligations.Vcksum8ChecksTheTrailingChecksum := by
  intro s
  refine ⟨exec_fcsVerify_range s false, exec_fcsVerify_length s false,
    fun hfit hlen (hsum : (s.span.map BitVec.toNat).sum % 256 = 0) => ?_,
    fun hfit hlen (hsum : (s.span.map BitVec.toNat).sum % 256 ≠ 0) => ?_⟩
  · have hspan := s.span_eq_append hlen
    rw [State.fbuf_one, ← Nat.add_sub_assoc hlen] at hspan
    rw [hspan, sum_append_singleton_mod_iff] at hsum
    rw [hsum] at hspan ⊢
    exact exec_fcsVerify_accepts s false hfit hspan
  · refine exec_fcsVerify_checksum s false hfit hlen fun body hspan => hsum ?_
    rw [hspan]
    exact (sum_append_singleton_mod_iff body _).2 rfl

/-- Settles O23: both verifying instructions accept only a span that ends in its FCS, which the changed span does not. -/
theorem oneByteChangesAreAlwaysDetected : Obligations.OneByteChangesAreAlwaysDetected := by
  intro i hi s t k v
  obtain ⟨crc, rfl⟩ : ∃ crc, i = fcsVerify crc := by
    obtain rfl | rfl : i = .vcrc16 ∨ i = .vcksum8 := by simpa using hi
    exacts [⟨true, rfl⟩, ⟨false, rfl⟩]
  exact exec_fcsVerify_oneByteChanged

set_option maxRecDepth 2000 in
/-- Settles O17: the captured frames are evaluated, and the step is `crcFrom` over a string and one byte more. -/
theorem crc16MatchesTheCapturedFrames : Obligations.Crc16MatchesTheCapturedFrames := by
  refine ⟨by decide, by decide, by decide, rfl, fun b x => ?_⟩
  rw [crc16_append_singleton, crcByte, crcShifts_eq_foldl]
  rfl

end Sys2Proof.Machine
end

section
/-! The padding unit (O24 to O26). UNPAD's scan answers how many bytes stand before the marker, the last 0x80 that only 0x00
bytes follow, and what `pad` appends is such a marker. -/

namespace Sys2Proof.Machine

/-! ### The scan for the marker -/

theorem scanMark_append {d : Bytes} {n : Nat} (e : Bytes) (hn : n ≤ d.length) : scanMark (d ++ e) n = scanMark d n := by
  induction n with
  | zero => rfl
  | succ n ih => simp only [scanMark, List.getD_append _ _ _ _ hn, ih (by omega)]

/-- 42_padding.md R142: the scan of a whole string looks at its last byte, and goes on before it when that is 0x00. -/
theorem scanMark_concat (d : Bytes) (b : Byte) : scanMark (d ++ [b]) (d ++ [b]).length =
    if b = 0x00 then scanMark d d.length else if b = 0x80 then some d.length else none := by
  rw [List.length_append, List.length_singleton, scanMark, scanMark_append [b] le_rfl]
  simp

theorem scanMark_marker (d : Bytes) (z : Nat) :
    scanMark (d ++ 0x80 :: List.replicate z 0x00) (d ++ 0x80 :: List.replicate z 0x00).length = some d.length := by
  induction z with
  | zero => exact scanMark_concat d 0x80
  | succ z ih =>
    rw [List.replicate_succ', ← List.cons_append, ← List.append_assoc, scanMark_concat, if_pos rfl, ih]

/-- A scan that answers has found a marker. -/
theorem exists_marker_of_scanMark {d : Bytes} {i : Nat} (h : scanMark d d.length = some i) :
    ∃ e z, d = e ++ 0x80 :: List.replicate z 0x00 := by
  induction d using List.reverseRecOn with
  | nil => cases h
  | append_singleton d b ih =>
    rw [scanMark_concat] at h
    split at h
    · next hzero =>
      obtain ⟨e, z, rfl⟩ := ih h
      exact ⟨e, z + 1, by simp [hzero, List.replicate_succ']⟩
    · split at h
      · next hmark => exact ⟨d, 0, by simp [hmark]⟩
      · cases h

/-! ### The data in DBUF -/

section
variable {s : State}

theorem dataOutOfRange_eq_false (hfit : s.dlen.toNat ≤ 1024) : s.dataOutOfRange = false := by
  rw [← Bool.not_eq_true, dataOutOfRange_iff]
  omega

theorem State.dbuf_congr {t : State} (h : ∀ a, t.byte a = s.byte a) (i n : Nat) : t.dbuf i n = s.dbuf i n := by
  apply List.ext_getElem (by simp)
  intro j _ _
  rw [State.getElem_dbuf, State.getElem_dbuf]
  exact h _

/-- A string stored right after the first `n` bytes of DBUF is appended to them. -/
theorem State.dbuf_writeDbuf_append (n : Nat) (d : Bytes) : (s.writeDbuf n d).dbuf 0 (n + d.length) = s.dbuf 0 n ++ d := by
  have hbelow : (s.writeDbuf n d).dbuf 0 n = s.dbuf 0 n :=
    Memory.readBytes_congr _ _ _ _ fun b _ hb => Memory.read_writeBytes_outside _ _ _ _ (.inl (by omega))
  rw [State.dbuf_add, hbelow, Nat.zero_add, State.dbuf_writeDbuf]

/-- The frame of DLEN and of the bytes of DBUF written together. -/
theorem unchanged_withDlen {stored : Nat → Prop} (n : Half) {m : Memory}
    (hm : ∀ a, ¬ stored a → m.read s.life a = s.byte a) : Unchanged [.dlen] [] stored s { s with dlen := n, mem := m } := by
  refine ⟨fun r hr i => ?_, fun f _ => ?_, hm, .refl s⟩
  · cases r
    case dlen => simp at hr
    all_goals rfl
  · cases f <;> rfl

/-! ### PAD -/

theorem add_length_padTail (n : Nat) : n + (padTail n).length = paddedLen n := by
  rw [length_padTail, paddedLen]
  omega

theorem paddedLen_le_iff (n : Nat) : paddedLen n ≤ 1024 ↔ n ≤ 1023 := by
  rw [paddedLen]
  omega

theorem exec_pad : exec .pad s = if 1023 < s.dlen.toNat then raiseError .range s
    else finish { s.writeDbuf s.dlen.toNat (padTail s.dlen.toNat) with dlen := BitVec.ofNat 16 (paddedLen s.dlen.toNat) } := by
  simp only [exec, execPad, dataOutOfRange_iff, Config.dbufSize, gt_iff_lt, ← not_le, paddedLen_le_iff]
  split
  · rw [if_pos (by omega)]
  · rfl

theorem exec_pad_padsInPlace (hfit : s.dlen.toNat ≤ 1023) : ∃ t, exec .pad s = .next t ∧
    t.dlen.toNat = paddedLen s.dlen.toNat ∧ t.dbuf 0 (paddedLen s.dlen.toNat) = pad s.data ∧ Succeeds s t ∧
    Unchanged [.dlen] [] (dbufSpan (paddedLen s.dlen.toNat)) s t := by
  have hlen := add_length_padTail s.dlen.toNat
  have hpadded := (paddedLen_le_iff _).2 hfit
  rw [exec_pad, if_neg (by omega)]
  refine ⟨_, rfl, ?_, ?_, succeeds_complete s _ rfl, (unchanged_withDlen _ fun a ha => ?_).complete _⟩
  · simp; omega
  · rw [← hlen, pad, State.length_data]
    exact State.dbuf_writeDbuf_append _ _
  · refine s.byte_writeDbuf_outside _ _ a ?_
    rw [dbufSpan] at ha
    omega

theorem exec_pad_range (hout : 1023 < s.dlen.toNat) : ∃ t, exec .pad s = .next t ∧ FailsCleanly .range s t := by
  rw [exec_pad, if_pos hout]
  exact ⟨_, rfl, failsCleanly_raise .range s⟩

/-! ### UNPAD -/

theorem exec_unpad_range (hout : 1024 < s.dlen.toNat) : ∃ t, exec .unpad s = .next t ∧ FailsCleanly .range s t := by
  rw [exec, execUnpad, (dataOutOfRange_iff s).2 hout]
  exact ⟨_, rfl, failsCleanly_raise .range s⟩

theorem exec_unpad (hfit : s.dlen.toNat ≤ 1024) : exec .unpad s =
    ((scanMark s.data s.data.length).elim (raiseError .nopadmark s) fun i => finish { s with dlen := BitVec.ofNat 16 i }) := by
  rw [exec, execUnpad, dataOutOfRange_eq_false hfit, State.length_data]
  cases scanMark s.data s.dlen.toNat <;> rfl

theorem exec_unpad_marker (hfit : s.dlen.toNat ≤ 1024) {d : Bytes} {z : Nat}
    (hdata : s.data = d ++ 0x80 :: List.replicate z 0x00) :
    ∃ t, exec .unpad s = .next t ∧ t.dlen.toNat = d.length ∧ Succeeds s t ∧ Unchanged [.dlen] [] noStore s t := by
  have hlen : s.dlen.toNat = d.length + (z + 1) := by
    rw [← State.length_data, hdata]
    simp
  rw [exec_unpad hfit, hdata, scanMark_marker]
  refine ⟨_, rfl, ?_, succeeds_complete s _ rfl, (unchanged_withDlen _ fun _ _ => rfl).complete _⟩
  simp; omega

theorem exec_unpad_noMarker (hfit : s.dlen.toNat ≤ 1024)
    (hdata : ∀ (d : Bytes) (z : Nat), s.data ≠ d ++ 0x80 :: List.replicate z 0x00) :
    ∃ t, exec .unpad s = .next t ∧ FailsCleanly .nopadmark s t := by
  have hscan : scanMark s.data s.data.length = none := by
    refine Option.eq_none_iff_forall_ne_some.2 fun i hi => ?_
    obtain ⟨e, z, he⟩ := exists_marker_of_scanMark hi
    exact hdata e z he
  rw [exec_unpad hfit, hscan]
  exact ⟨_, rfl, failsCleanly_raise .nopadmark s⟩

end

/-! ### The obligations -/

/-- Settles O24: the padded length fits DBUF exactly when DLEN is at most 1023, and then the tail is stored after the data. -/
theorem padPadsInPlace : Obligations.PadPadsInPlace := fun _ => ⟨exec_pad_padsInPlace, exec_pad_range⟩

/-- Settles O25: the scan answers exactly on data with a marker, by the length of what stands before it. -/
theorem unpadFindsTheLastMarker : Obligations.UnpadFindsTheLastMarker := fun _ =>
  ⟨exec_unpad_range, fun hfit _ _ => exec_unpad_marker hfit, exec_unpad_noMarker⟩

/-- Settles O26: what PAD leaves in DBUF is the data and a marker, so UNPAD answers the data's length and stores nothing. -/
theorem paddingLaws : Obligations.PaddingLaws := by
  refine ⟨fun d => ⟨⟨_, rfl⟩, ?_, ?_, ?_⟩, fun s hfit => ?_⟩
  · rw [length_pad, paddedLen_mod]
  · rw [length_pad, paddedLen]
    omega
  · rw [length_pad, paddedLen]
    omega
  · obtain ⟨t, hpad, hlen, hdata, -, -⟩ := exec_pad_padsInPlace hfit
    have hpadded := (paddedLen_le_iff _).2 hfit
    have ht : t.data = pad s.data := by rw [State.data, hlen, hdata]
    obtain ⟨u, hunpad, hulen, ⟨hok, -⟩, -, -, hbytes, -⟩ := exec_unpad_marker (s := t) (by omega) ht
    refine ⟨t, u, hpad, hunpad, hok, BitVec.eq_of_toNat_eq (by rw [hulen, State.length_data]), ?_⟩
    rw [State.dbuf_congr fun a => hbytes a id]
    rw [← add_length_padTail, State.dbuf_add] at hdata
    exact (List.append_inj hdata ((t.length_dbuf _ _).trans s.length_data.symm)).1

end Sys2Proof.Machine
end

section
/-! The AES-128 unit (O27 to O29). Each step of a round is undone by its inverse: the tables S and InvS by evaluation,
MixColumns by linearity from the columns with one nonzero byte. So a state of the encryption and the state of the decryption
that stands for it determine each other, round by round. -/

namespace Sys2Proof.Machine

/-! ### SubBytes -/

/-- 43_aes.md R153: the affine map, from the bits of the inverse to the entry of S. -/
def sboxAffine (b : Byte) : Byte :=
  b ^^^ b.rotateLeft 1 ^^^ b.rotateLeft 2 ^^^ b.rotateLeft 3 ^^^ b.rotateLeft 4 ^^^ 0x63

/-- The map that undoes `sboxAffine`, so that `sboxAffineInv (sbox x)` is the inverse of x in GF(2^8). -/
def sboxAffineInv (y : Byte) : Byte := y.rotateLeft 1 ^^^ y.rotateLeft 3 ^^^ y.rotateLeft 6 ^^^ 0x05

theorem sboxAffine_sboxAffineInv (y : Byte) : sboxAffine (sboxAffineInv y) = y := by revert y; decide

set_option maxRecDepth 4000 in
theorem gmul_sboxAffineInv_sbox (x : Byte) : x ≠ 0 → gmul x (sboxAffineInv (sbox x)) = 1 := by revert x; decide

set_option maxRecDepth 4000 in
@[simp] theorem invSbox_sbox (x : Byte) : invSbox (sbox x) = x := by revert x; decide

set_option maxRecDepth 4000 in
@[simp] theorem sbox_invSbox (x : Byte) : sbox (invSbox x) = x := by revert x; decide

@[simp] theorem invSubBytes_subBytes (s : Block) : invSubBytes (subBytes s) = s := by
  simp [invSubBytes, subBytes, Block.map, Quad.map]

@[simp] theorem subBytes_invSubBytes (s : Block) : subBytes (invSubBytes s) = s := by
  simp [invSubBytes, subBytes, Block.map, Quad.map]

/-! ### MixColumns -/

section
variable (k0 k1 k2 k3 : Byte)

theorem mixColumn_xor (p q : Quad) :
    mixColumn k0 k1 k2 k3 (p.xor q) = (mixColumn k0 k1 k2 k3 p).xor (mixColumn k0 k1 k2 k3 q) := by
  simp only [mixColumn, Quad.xor, gmul_xor, Quad.mk.injEq]
  refine ⟨?_, ?_, ?_, ?_⟩ <;> ac_rfl

/-- A mix is circulant: it commutes with the rotation of the column. -/
theorem mixColumn_rotWord (q : Quad) : mixColumn k0 k1 k2 k3 (rotWord q) = rotWord (mixColumn k0 k1 k2 k3 q) := by
  simp only [mixColumn, rotWord, Quad.mk.injEq]
  refine ⟨?_, ?_, ?_, ?_⟩ <;> ac_rfl

end

/-- A column is the XOR of four rotated columns whose only nonzero byte is the first. -/
theorem quad_eq_xor_rotWord (q : Quad) :
    q = (Quad.mk q.b0 0 0 0).xor ((rotWord (rotWord (rotWord ⟨q.b1, 0, 0, 0⟩))).xor
      ((rotWord (rotWord ⟨q.b2, 0, 0, 0⟩)).xor (rotWord ⟨q.b3, 0, 0, 0⟩))) := by
  simp [Quad.xor, rotWord]

/-- Two mixes that undo each other on the columns with one nonzero byte do so on every column. -/
theorem mixColumn_mixColumn_of_single {k0 k1 k2 k3 l0 l1 l2 l3 : Byte}
    (h : ∀ a, mixColumn l0 l1 l2 l3 (mixColumn k0 k1 k2 k3 ⟨a, 0, 0, 0⟩) = ⟨a, 0, 0, 0⟩) (q : Quad) :
    mixColumn l0 l1 l2 l3 (mixColumn k0 k1 k2 k3 q) = q := by
  rw [quad_eq_xor_rotWord q]
  simp only [mixColumn_xor, mixColumn_rotWord, h]

@[simp] theorem gmul_zero_left (b : Byte) : gmul 0#8 b = 0#8 := by
  have h := gmul_xor 0#8 0#8 b
  rwa [BitVec.xor_self, BitVec.xor_self] at h

theorem mixColumn_single (k0 k1 k2 k3 a : Byte) :
    mixColumn k0 k1 k2 k3 ⟨a, 0, 0, 0⟩ = ⟨gmul a k0, gmul a k3, gmul a k2, gmul a k1⟩ := by
  simp [mixColumn]

/-- 43_aes.md R156: with every product written as XORs of `xtime^j(a)`, all of them but `a` itself cancel. -/
theorem invMixColumn_mixColumn_single (a : Byte) :
    mixColumn 0x0E 0x0B 0x0D 0x09 (mixColumn 0x02 0x03 0x01 0x01 ⟨a, 0, 0, 0⟩) = ⟨a, 0, 0, 0⟩ := by
  rw [mixColumn_single, mixColumn]
  simp [gmul, gmulBelow, xtimes, xtime_xor, BitVec.xor_assoc, BitVec.xor_comm, Byte.xor_left_comm]

/-- 43_aes.md R156: the same cancellation, with the coefficients of the two mixes exchanged. -/
theorem mixColumn_invMixColumn_single (a : Byte) :
    mixColumn 0x02 0x03 0x01 0x01 (mixColumn 0x0E 0x0B 0x0D 0x09 ⟨a, 0, 0, 0⟩) = ⟨a, 0, 0, 0⟩ := by
  rw [mixColumn_single, mixColumn]
  simp [gmul, gmulBelow, xtimes, xtime_xor, BitVec.xor_assoc, BitVec.xor_comm, Byte.xor_left_comm]

@[simp] theorem invMixColumns_mixColumns (s : Block) : invMixColumns (mixColumns s) = s := by
  simp only [invMixColumns, mixColumns, mixWith, mixColumn_mixColumn_of_single invMixColumn_mixColumn_single]

@[simp] theorem mixColumns_invMixColumns (s : Block) : mixColumns (invMixColumns s) = s := by
  simp only [invMixColumns, mixColumns, mixWith, mixColumn_mixColumn_of_single mixColumn_invMixColumn_single]

/-! ### The rounds -/

theorem invSubBytes_invShiftRows_eq_iff (x y : Block) : invSubBytes (invShiftRows x) = y ↔ x = shiftRows (subBytes y) := by
  constructor <;> rintro rfl <;> simp

theorem invMixColumns_eq_iff (x y : Block) : invMixColumns x = y ↔ x = mixColumns y := by
  constructor <;> rintro rfl <;> simp

theorem xor_eq_iff_eq_xor (x y z : Block) : x.xor z = y ↔ x = y.xor z := by
  constructor <;> rintro rfl <;> simp

/-- 43_aes.md R159, R160: the state `n` rounds into the decryption stands for the state `m` rounds into the encryption when it
is that state after its next SubBytes and ShiftRows. -/
def StandsFor (k p c : Block) (n m : Nat) : Prop := decRounds k c n = shiftRows (subBytes (encRounds k p m))

section
variable {k p c : Block}

theorem standsFor_succ_iff {n m : Nat} (h : n + m = 8) : StandsFor k p c (n + 1) m ↔ StandsFor k p c n (m + 1) := by
  have hround : 9 - n = m + 1 := by omega
  rw [StandsFor, StandsFor, decRounds, encRounds, hround, invMixColumns_eq_iff, xor_eq_iff_eq_xor,
    invSubBytes_invShiftRows_eq_iff]

theorem standsFor_iff {n m : Nat} (h : n + m = 9) : StandsFor k p c n m ↔ StandsFor k p c 0 9 := by
  induction n generalizing m with
  | zero => rw [show m = 9 by omega]
  | succ n ih => rw [standsFor_succ_iff (by omega), ih (by omega)]

theorem aesDec_eq_iff : aesDec k c = p ↔ StandsFor k p c 9 0 := by
  rw [StandsFor, encRounds, aesDec, xor_eq_iff_eq_xor, invSubBytes_invShiftRows_eq_iff]

theorem eq_aesEnc_iff : c = aesEnc k p ↔ StandsFor k p c 0 9 := by
  rw [StandsFor, decRounds, aesEnc, xor_eq_iff_eq_xor]

/-- 43_aes.md R163. -/
theorem aesDec_eq_iff_eq_aesEnc : aesDec k c = p ↔ c = aesEnc k p := by
  rw [aesDec_eq_iff, standsFor_iff rfl, eq_aesEnc_iff]

end

@[simp] theorem aesDec_aesEnc (k p : Block) : aesDec k (aesEnc k p) = p := aesDec_eq_iff_eq_aesEnc.2 rfl

@[simp] theorem aesEnc_aesDec (k c : Block) : aesEnc k (aesDec k c) = c := (aesDec_eq_iff_eq_aesEnc.1 rfl).symm

/-! ### The instructions -/

section
variable (s : State) (b : Block)

theorem unchanged_withBlk : Unchanged [.blk] [] noStore s { s with blk := b } := by
  refine ⟨fun r hr i => ?_, fun f _ => ?_, fun _ _ => rfl, .refl s⟩
  · cases r
    case blk => simp at hr
    all_goals rfl
  · cases f <;> rfl

theorem finish_withBlk : ∃ t, finish { s with blk := b } = .next t ∧ t.blk = b ∧ Succeeds s t ∧
    Unchanged [.blk] [] noStore s t :=
  ⟨_, rfl, rfl, succeeds_complete s _ rfl, (unchanged_withBlk s b).complete _⟩

end

/-! ### The obligations -/

set_option maxRecDepth 2000 in
/-- Settles O28: the known answers are evaluated, and decryption to p and encryption from p are one condition. -/
theorem aesDecryptionInvertsEncryption : Obligations.AesDecryptionInvertsEncryption :=
  ⟨by decide, by decide, aesDec_aesEnc, aesEnc_aesDec⟩

/-- Settles O29: each of the eight instructions finishes with BLK replaced and nothing else. -/
theorem aesInstructionsTransformBlk : Obligations.AesInstructionsTransformBlk := by
  intro s p hp
  simp only [List.mem_cons, List.not_mem_nil, or_false] at hp
  obtain rfl | rfl | rfl | rfl | rfl | rfl | rfl | rfl := hp
  all_goals exact finish_withBlk s _

/-- Settles O27: the inverse of x is what the affine map takes to S[x], and 0x63 is the affine image of 0. -/
theorem sboxIsTheInverseThroughTheAffineMap : Obligations.SboxIsTheInverseThroughTheAffineMap := by
  refine ⟨fun x => ⟨sboxAffineInv (sbox x), ?_, gmul_sboxAffineInv_sbox x, ?_⟩, invSbox_sbox, sbox_invSbox⟩
  · rintro rfl
    decide
  · exact (sboxAffine_sboxAffineInv _).symm

end Sys2Proof.Machine
end

section
/-! The Security Context (O31 to O36). Each instruction's meaning is one record update, said here by name with its frame; the
handshake is a run of them whose results depend on KEY, RND_A and RND_B alone. -/

namespace Sys2Proof.Machine

/-- Two blocks that agree in every byte are equal. -/
theorem Block.eq_of_get {b c : Block} (h : ∀ i, i < 16 → b.get i = c.get i) : b = c := by
  have hbytes : b.toBytes = c.toBytes := by
    rw [← Block.map_get_range, ← Block.map_get_range]
    exact List.map_congr_left fun i hi => h i (List.mem_range.1 hi)
  rw [← Block.ofBytes_toBytes b, hbytes, Block.ofBytes_toBytes]

/-- The frame of an update of registers alone. -/
theorem Unchanged.of_regByte {regs : List Reg} {flags : List Flag} {s t : State}
    (hregs : ∀ r, r ∉ regs → ∀ i, t.regByte r i = s.regByte r i) (hstatus : t.status = s.status := by rfl)
    (hmem : t.mem = s.mem := by rfl) (hhidden : HiddenKept s t := by exact .refl s) : Unchanged regs flags noStore s t := by
  refine ⟨fun r hr i => ?_, fun f _ => ?_, fun a _ => ?_, hhidden⟩
  · simp only [List.mem_cons, not_or] at hr
    obtain ⟨-, -, hr⟩ := hr
    exact hregs r hr i
  · rw [State.flag_eq, State.flag_eq, hstatus]
  · obtain ⟨-, -, hlife, -⟩ := hhidden
    exact State.byte_congr hmem hlife a

/-! ### What the instructions write -/

/-- 44_security_context.md R182: the session keys derived from KEY and RND_A. -/
def State.withSessionKeys (s : State) : State :=
  { s with
    sEnc := aesEnc s.key (derivationBlock 0x01 0x82 s.rndA)
    sMac1 := aesEnc s.key (derivationBlock 0x01 0x01 s.rndA)
    sMac2 := aesEnc s.key (derivationBlock 0x01 0x02 s.rndA) }

/-- R183: both cryptograms computed from S_ENC, RND_A and RND_B. -/
def State.withCryptograms (s : State) : State :=
  { s with
    ccrypt := aesEnc s.sEnc (.ofRnds s.rndA s.rndB)
    scrypt := aesEnc s.sEnc (.ofRnds s.rndB s.rndA) }

/-- R185, R186: the R-MAC set and the channel established. -/
def State.establishedWith (s : State) (b : Block) : State := { s with rmac := b }.setEstablished true

section
variable (s : State)

theorem exec_derive : exec .derive s = finish s.withSessionKeys := rfl

theorem exec_crypt : exec .crypt s = finish s.withCryptograms := rfl

theorem exec_vccrypt_match (h : s.blk = s.ccrypt) : exec .vccrypt s = finish (s.setMatched true) := if_neg (not_not_intro h)

theorem exec_vccrypt_mismatch (h : s.blk ≠ s.ccrypt) : exec .vccrypt s = raiseMatchError .cryptmismatch s := if_pos h

theorem exec_vscrypt_match (h : s.blk = s.scrypt) :
    exec .vscrypt s = finish ((s.establishedWith s.initialRmac).setMatched true) := if_neg (not_not_intro h)

theorem exec_vscrypt_mismatch (h : s.blk ≠ s.scrypt) : exec .vscrypt s = raiseMatchError .cryptmismatch s := if_pos h

theorem exec_adoptrmac : exec .adoptrmac s = finish (s.establishedWith s.blk) := rfl

/-! ### What they leave unchanged -/

theorem unchanged_withSessionKeys : Unchanged [.sEnc, .sMac1, .sMac2] [] noStore s s.withSessionKeys :=
  .of_regByte fun r hr i => by
    cases r
    case sEnc | sMac1 | sMac2 => simp at hr
    all_goals rfl

theorem unchanged_withCryptograms : Unchanged [.ccrypt, .scrypt] [] noStore s s.withCryptograms :=
  .of_regByte fun r hr i => by
    cases r
    case ccrypt | scrypt => simp at hr
    all_goals rfl

theorem unchanged_withRmac (flags : List Flag) (b : Block) : Unchanged [.rmac] flags noStore s { s with rmac := b } :=
  .of_regByte fun r hr i => by
    cases r
    case rmac => simp at hr
    all_goals rfl

theorem unchanged_establishedWith {flags : List Flag} (hf : .established ∈ flags) (b : Block) :
    Unchanged [.rmac] flags noStore s (s.establishedWith b) :=
  (unchanged_withRmac s flags b).setStatusBit .established true hf

@[simp] theorem established_establishedWith (b : Block) : (s.establishedWith b).established = true :=
  State.established_setStatusBit _ _ _ (by decide)

@[simp] theorem err_establishedWith (b : Block) : (s.establishedWith b).err = s.err :=
  State.err_setStatusBit _ _ _ (by decide)

@[simp] theorem cmac_establishedWith (b : Block) : (s.establishedWith b).cmac = s.cmac := rfl

end

/-! ### The handshake -/

/-- The state after DERIVE and CRYPT. -/
def State.handshakeKeyed (s : State) : State := (s.withSessionKeys.complete 0x00).withCryptograms.complete 0x00

theorem cmac_handshakeKeyed (s : State) : s.handshakeKeyed.cmac = s.cmac := by
  simp [State.handshakeKeyed, State.withCryptograms, State.withSessionKeys]

/-- 44_security_context.md R187: the keys and cryptograms depend on KEY, RND_A and RND_B alone. -/
theorem handshakeKeyed_congr {a b : State} (hkey : a.key = b.key) (hA : a.rndA = b.rndA) (hB : a.rndB = b.rndB) :
    a.handshakeKeyed.sEnc = b.handshakeKeyed.sEnc ∧ a.handshakeKeyed.sMac1 = b.handshakeKeyed.sMac1 ∧
    a.handshakeKeyed.sMac2 = b.handshakeKeyed.sMac2 ∧ a.handshakeKeyed.ccrypt = b.handshakeKeyed.ccrypt ∧
    a.handshakeKeyed.scrypt = b.handshakeKeyed.scrypt := by
  simp [State.handshakeKeyed, State.withCryptograms, State.withSessionKeys, hkey, hA, hB]

/-! ### The obligations -/

/-- Settles O31: the derivation block is its bytes written in a row. -/
theorem deriveMakesTheSessionKeys : Obligations.DeriveMakesTheSessionKeys := fun s =>
  ⟨_, exec_derive s, rfl, rfl, rfl, succeeds_complete s _ rfl, (unchanged_withSessionKeys s).complete _⟩

/-- Settles O32: two randoms side by side are their bytes written in a row. -/
theorem cryptMakesBothCryptograms : Obligations.CryptMakesBothCryptograms := fun s =>
  ⟨_, exec_crypt s, rfl, rfl, succeeds_complete s _ rfl, (unchanged_withCryptograms s).complete _⟩

/-- Settles O33: blocks are equal exactly when their sixteen bytes are. -/
theorem vccryptComparesAllSixteenBytes : Obligations.VccryptComparesAllSixteenBytes := by
  refine fun s => ⟨fun h => ?_, fun i _ hi => ?_⟩
  · refine ⟨_, exec_vccrypt_match s (Block.eq_of_get h), by simp, succeeds_complete s _ (by simp), ?_⟩
    exact ((Unchanged.refl _ _ _ s).setStatusBit .matched true (by simp)).complete _
  · exact ⟨_, exec_vccrypt_mismatch s (ne_of_apply_ne (Block.get · i) hi), failsUnmatched_raise .cryptmismatch s⟩

/-- Settles O34: on equal blocks the R-MAC, ESTABLISHED and MATCH are written; on unequal ones MATCH alone. -/
theorem vscryptEstablishesOnMatch : Obligations.VscryptEstablishesOnMatch := by
  refine fun s => ⟨fun h => ?_, fun i _ hi => ?_⟩
  · refine ⟨_, exec_vscrypt_match s (Block.eq_of_get h), rfl, by simp, by simp, succeeds_complete s _ (by simp), ?_⟩
    exact ((unchanged_establishedWith s (by simp) _).setStatusBit .matched true (by simp)).complete _
  · exact ⟨_, exec_vscrypt_mismatch s (ne_of_apply_ne (Block.get · i) hi), failsUnmatched_raise .cryptmismatch s⟩

/-- Settles O35: R-MAC and ESTABLISHED are all that is written. -/
theorem adoptrmacEstablishes : Obligations.AdoptrmacEstablishes := fun s =>
  ⟨_, exec_adoptrmac s, rfl, by simp, succeeds_complete s _ (by simp), (unchanged_establishedWith s (by simp) _).complete _⟩

/-- Settles O36: since both sides hold the same cryptograms, each check is of a block against an equal one. -/
theorem handshakeBringsBothSidesToTheSameKeys : Obligations.HandshakeBringsBothSidesToTheSameKeys := by
  intro a b hkey hA hB
  obtain ⟨hEnc, hMac1, hMac2, hccrypt, hscrypt⟩ := handshakeKeyed_congr hkey hA hB
  refine ⟨_, a.handshakeKeyed, _, b.handshakeKeyed, exec_derive a, exec_crypt _, exec_derive b, exec_crypt _,
    hEnc, hMac1, hMac2, hccrypt, hscrypt, ?_⟩
  exact ⟨_, _, _, exec_vccrypt_match _ hccrypt.symm, by simp, exec_vscrypt_match _ hscrypt, by simp, by simp,
    exec_adoptrmac _, rfl, by simp, fun hcmac => by simp [cmac_handshakeKeyed, hcmac]⟩

end Sys2Proof.Machine
end

section
/-! The session MAC and the CBC data cipher (O37 to O42). A string of whole blocks is the string of its blocks, so CBC and the
MAC's chain are read off block lists; the instructions are said once for both directions, and the four ciphers once for any
function of the data that keeps its length. -/

namespace Sys2Proof.Machine

/-! ### Strings of whole blocks -/

theorem exists_bytesOf_eq {d : Bytes} (h : d.length % 16 = 0) : ∃ bs, bytesOf bs = d :=
  ⟨_, bytesOf_blocksOf (d.length / 16) d (by omega)⟩

theorem exists_toBytes_append_eq {d : Bytes} (h : 16 ≤ d.length) : ∃ (b : Block) (e : Bytes), b.toBytes ++ e = d :=
  ⟨_, _, Block.toBytes_ofBytes_append_drop d h⟩

/-- The blocks that `mac`, `cbc_enc` and `cbc_dec` cut a string of whole blocks into. -/
theorem blocksOf_length_bytesOf (bs : List Block) : blocksOf ((bytesOf bs).length / 16) (bytesOf bs) = bs := by
  rw [length_bytesOf, Nat.mul_div_cancel_left _ (by decide), blocksOf_bytesOf]

/-! ### CBC -/

section
variable (k iv : Block) (bs : List Block)

theorem cbcEnc_bytesOf : cbcEnc k iv (bytesOf bs) = bytesOf (cbcEncBlocks k iv bs) := by
  rw [cbcEnc, blocksOf_length_bytesOf]

theorem cbcDec_bytesOf : cbcDec k iv (bytesOf bs) = bytesOf (cbcDecBlocks k iv bs) := by
  rw [cbcDec, blocksOf_length_bytesOf]

/-- 45_mac_cbc.md R213: both chain from the ciphertext block before, so D undoes E block by block. -/
theorem cbcDecBlocks_cbcEncBlocks : cbcDecBlocks k iv (cbcEncBlocks k iv bs) = bs := by
  induction bs generalizing iv with
  | nil => rfl
  | cons p ps ih => simp only [cbcEncBlocks, cbcDecBlocks, aesDec_aesEnc, Block.xor_xor_cancel_right, ih]

theorem cbcDec_cbcEnc {d : Bytes} (h : d.length % 16 = 0) : cbcDec k iv (cbcEnc k iv d) = d := by
  obtain ⟨bs, rfl⟩ := exists_bytesOf_eq h
  rw [cbcEnc_bytesOf, cbcDec_bytesOf, cbcDecBlocks_cbcEncBlocks]

end

/-! ### The MAC -/

/-- 42_padding.md R140: what is appended depends on the length of the last, partial block alone. -/
theorem pad_toBytes_append (b : Block) (d : Bytes) : pad (b.toBytes ++ d) = b.toBytes ++ pad d := by
  simp [pad, padTail]

theorem macInput_of_short {m : Bytes} (h : m.length < 16) : macInput false m = pad m :=
  if_neg fun ⟨hpos, hmod, _⟩ => by omega

theorem macInput_of_block {m : Bytes} (h : m.length = 16) : macInput false m = m :=
  if_pos ⟨by omega, by omega, rfl⟩

/-- 45_mac_cbc.md R210: whether the end of a message is padded does not depend on the blocks before it. -/
theorem macInput_toBytes_append (b : Block) {d : Bytes} (h : d ≠ []) :
    macInput false (b.toBytes ++ d) = b.toBytes ++ macInput false d := by
  have hpos : 0 < d.length := List.length_pos_iff.2 h
  simp only [macInput, List.length_append, Block.length_toBytes, pad_toBytes_append, Nat.add_mod_left, hpos,
    Nat.add_pos_right, true_and]
  split <;> rfl

theorem macInput_aligned (m : Bytes) : (macInput false m).length % 16 = 0 ∧ 0 < (macInput false m).length := by
  unfold macInput
  split
  · next h =>
    obtain ⟨hpos, hmod, -⟩ := h
    exact ⟨hmod, hpos⟩
  · rw [length_pad, paddedLen]
    omega

theorem exists_macInput_eq_bytesOf (m : Bytes) : ∃ p ps, macInput false m = bytesOf (p :: ps) := by
  obtain ⟨hmod, hpos⟩ := macInput_aligned m
  obtain ⟨bs, hbs⟩ := exists_bytesOf_eq hmod
  cases bs with
  | nil => simp [← hbs, bytesOf] at hpos
  | cons p ps => exact ⟨p, ps, hbs.symm⟩

section
variable (s : State) (iv : Block)

theorem mac_of_macInput_eq {m : Bytes} {bs : List Block} (h : macInput false m = bytesOf bs) :
    s.mac m iv = macChain s.sMac1 s.sMac2 iv bs := by
  rw [State.mac, macWith, Config.macPadAligned, h, blocksOf_length_bytesOf]

/-- A message whose input is one block is encrypted under S_MAC2 alone. -/
theorem mac_of_length_macInput {m : Bytes} (h : (macInput false m).length = 16) :
    s.mac m iv = aesEnc s.sMac2 ((Block.ofBytes (macInput false m)).xor iv) := by
  obtain ⟨b, e, he⟩ := exists_toBytes_append_eq h.ge
  obtain rfl : e = [] := by simpa [← he] using h
  rw [mac_of_macInput_eq s iv (bs := [b]) he.symm, ← he, Block.ofBytes_toBytes_append, macChain]

theorem mac_toBytes_append (b : Block) {d : Bytes} (h : d ≠ []) :
    s.mac (b.toBytes ++ d) iv = s.mac d (aesEnc s.sMac1 (b.xor iv)) := by
  obtain ⟨p, ps, hp⟩ := exists_macInput_eq_bytesOf d
  have hb : macInput false (b.toBytes ++ d) = bytesOf (b :: p :: ps) := by rw [macInput_toBytes_append b h, hp]; rfl
  rw [mac_of_macInput_eq s iv hb, mac_of_macInput_eq s _ hp, macChain]

end

/-! ### MACC and MACR -/

/-- The two MAC instructions (30_encoding.md R81, format M). -/
def macInstr : Dir → Instr
  | .command => .macc
  | .reply => .macr

section
variable (s : State) (d : Dir)

theorem exec_macInstr : exec (macInstr d) s = macSpan d s := by cases d <;> rfl

theorem chainIv_eq_accumulator_other : s.chainIv d = s.accumulator d.other := by cases d <;> rfl

theorem accumulator_setAccumulator (b : Block) : (s.setAccumulator d b).accumulator d = b := by cases d <;> rfl

theorem err_setAccumulator (b : Block) : (s.setAccumulator d b).err = s.err := by cases d <;> rfl

theorem unchanged_setAccumulator (b : Block) : Unchanged [accumulatorReg d] [] noStore s (s.setAccumulator d b) := by
  cases d
  case command =>
    refine .of_regByte fun r hr i => ?_
    cases r
    case cmac => simp [accumulatorReg] at hr
    all_goals rfl
  case reply => exact unchanged_withRmac s [] b

theorem exec_macInstr_range (hout : 2048 < s.opoff.toNat + s.oplen.toNat) :
    exec (macInstr d) s = raiseError .range s := by
  rw [exec_macInstr, macSpan, if_pos ((spanOutOfRange_iff s).2 hout)]

section
variable (hfit : s.opoff.toNat + s.oplen.toNat ≤ 2048)
include hfit

theorem exec_macInstr_notest (hest : s.established = false) : exec (macInstr d) s = raiseError .notest s := by
  rw [exec_macInstr, macSpan, spanOutOfRange_eq_false s hfit, if_neg Bool.false_ne_true, if_pos hest]

theorem exec_macInstr_chains (hest : s.established = true) :
    exec (macInstr d) s = finish (s.setAccumulator d (s.dirMac d s.span)) := by
  rw [exec_macInstr, macSpan, spanOutOfRange_eq_false s hfit, if_neg Bool.false_ne_true, if_neg (by simp [hest])]

end

end

/-! ### Two blocks in equal MAC state -/

/-- 45_mac_cbc.md R220: two states agree in everything that a MAC instruction reads. -/
structure SameMacState (a b : State) : Prop where
  sMac1 : a.sMac1 = b.sMac1
  sMac2 : a.sMac2 = b.sMac2
  cmac : a.cmac = b.cmac
  rmac : a.rmac = b.rmac
  established : a.established = b.established
  opoff : a.opoff = b.opoff
  oplen : a.oplen = b.oplen
  span : a.span = b.span

namespace SameMacState

variable {a b : State}

theorem complete (h : SameMacState a b) (c : Byte) : SameMacState (a.complete c) (b.complete c) :=
  { h with established := by simp only [State.established_complete, h.established] }

theorem setAccumulator (h : SameMacState a b) (d : Dir) (x : Block) :
    SameMacState (a.setAccumulator d x) (b.setAccumulator d x) := by
  cases d
  case command => exact { h with cmac := rfl }
  case reply => exact { h with rmac := rfl }

theorem dirMac_span_eq (h : SameMacState a b) (d : Dir) : a.dirMac d a.span = b.dirMac d b.span := by
  have hiv : a.chainIv d = b.chainIv d := by
    cases d
    exacts [h.rmac, h.cmac]
  simp only [State.dirMac, State.mac, h.sMac1, h.sMac2, h.span, hiv]

/-- Both states end a MAC instruction alike: with the same error, or with the same MAC written. -/
theorem exec_macInstr (h : SameMacState a b) (d : Dir) :
    ∃ t u, exec (macInstr d) a = .next t ∧ exec (macInstr d) b = .next u ∧ SameMacState t u := by
  have hsum : a.opoff.toNat + a.oplen.toNat = b.opoff.toNat + b.oplen.toNat := by rw [h.opoff, h.oplen]
  by_cases hfit : a.opoff.toNat + a.oplen.toNat ≤ 2048
  · cases hest : a.established with
    | false =>
      exact ⟨_, _, exec_macInstr_notest a d hfit hest, exec_macInstr_notest b d (hsum ▸ hfit) (h.established ▸ hest),
        h.complete _⟩
    | true =>
      refine ⟨_, _, exec_macInstr_chains a d hfit hest,
        exec_macInstr_chains b d (hsum ▸ hfit) (h.established ▸ hest), ?_⟩
      rw [h.dirMac_span_eq]
      exact (h.setAccumulator d _).complete _
  · exact ⟨_, _, exec_macInstr_range a d (by omega), exec_macInstr_range b d (by omega), h.complete _⟩

theorem execAll {is : List Instr} (his : ∀ i ∈ is, ∃ d, i = macInstr d) (h : SameMacState a b) :
    ∃ t u, execAll is a = .next t ∧ execAll is b = .next u ∧ SameMacState t u := by
  induction is generalizing a b with
  | nil => exact ⟨a, b, rfl, rfl, h⟩
  | cons i is ih =>
    obtain ⟨⟨d, rfl⟩, hrest⟩ := List.forall_mem_cons.1 his
    obtain ⟨t, u, ht, hu, htu⟩ := h.exec_macInstr d
    simpa only [Machine.execAll, ht, hu] using ih hrest htu

end SameMacState

/-! ### The data cipher -/

/-- The two instructions that encrypt (30_encoding.md R81, format X). -/
def encInstr : Dir → Instr
  | .command => .encc
  | .reply => .encr

/-- The two instructions that decrypt. -/
def decInstr : Dir → Instr
  | .command => .decc
  | .reply => .decr

theorem exec_encInstr (s : State) (d : Dir) : exec (encInstr d) s = cipherData (cbcEnc s.sEnc (s.cipherIv d)) s := by
  cases d <;> rfl

theorem exec_decInstr (s : State) (d : Dir) : exec (decInstr d) s = cipherData (cbcDec s.sEnc (s.cipherIv d)) s := by
  cases d <;> rfl

/-- 45_mac_cbc.md R214: the IV is the complement of the direction's own accumulator. -/
theorem cipherIv_eq_map (s : State) (d : Dir) : s.cipherIv d = (s.accumulator d).map (0xFF - ·) := by
  cases d <;> exact Block.compl_eq_map _

section
variable (s : State) (f : Bytes → Bytes)

theorem unchanged_writeDbuf (d : Bytes) : Unchanged [] [] (dbufSpan d.length) s (s.writeDbuf 0 d) := by
  refine ⟨fun r _ i => ?_, fun f _ => ?_, fun a ha => s.byte_writeDbuf_outside 0 d a ?_, .refl s⟩
  · cases r <;> rfl
  · cases f <;> rfl
  · rw [dbufSpan] at ha
    omega

/-- The bytes of DBUF[0..n) stored over any others give back every byte of a buffer that is otherwise the same. -/
theorem State.byte_writeDbuf_dbuf {t : State} {n : Nat} (h : ∀ a, ¬ dbufSpan n a → t.byte a = s.byte a) (a : Nat) :
    (t.writeDbuf 0 (s.dbuf 0 n)).byte a = s.byte a := by
  by_cases ha : dbufSpan n a
  · obtain ⟨hlo, hhi⟩ := ha
    obtain ⟨i, rfl⟩ := Nat.exists_eq_add_of_le hlo
    have hi : i < (s.dbuf 0 n).length := by
      rw [State.length_dbuf]
      omega
    refine (Memory.read_writeBytes_inside t.mem _ i _ hi).trans ?_
    rw [State.getElem_dbuf, Nat.zero_add, State.dbufByte]
  · rw [State.byte_writeDbuf_outside, h a ha]
    rw [dbufSpan] at ha
    rw [State.length_dbuf]
    omega

theorem cipherData_range (hout : 1024 < s.dlen.toNat) : cipherData f s = raiseError .range s :=
  if_pos ((dataOutOfRange_iff s).2 hout)

section
variable (hfit : s.dlen.toNat ≤ 1024)
include hfit

theorem cipherData_notest (hest : s.established = false) : cipherData f s = raiseError .notest s := by
  rw [cipherData, dataOutOfRange_eq_false hfit, if_neg Bool.false_ne_true, if_pos hest]

section
variable (hest : s.established = true)
include hest

theorem cipherData_notaligned (hmod : s.dlen.toNat % 16 ≠ 0) : cipherData f s = raiseError .notaligned s := by
  rw [cipherData, dataOutOfRange_eq_false hfit, if_neg Bool.false_ne_true, if_neg (by simp [hest]),
    if_neg fun hzero => hmod (by rw [hzero]), if_pos hmod]

/-- R217, R218: a zero length is no special case, since the empty string is stored. -/
theorem cipherData_aligned (hmod : s.dlen.toNat % 16 = 0) (hf : (f s.data).length = s.dlen.toNat) :
    cipherData f s = finish (s.writeDbuf 0 (f s.data)) := by
  rw [cipherData, dataOutOfRange_eq_false hfit, if_neg Bool.false_ne_true, if_neg (by simp [hest])]
  split
  · next hzero =>
    rw [List.length_eq_zero_iff.1 (hf.trans hzero)]
    rfl
  · rw [if_neg (not_not_intro hmod)]

theorem cipherData_transforms (hmod : s.dlen.toNat % 16 = 0) (hf : (f s.data).length = s.dlen.toNat) :
    ∃ t, cipherData f s = .next t ∧ t.dbuf 0 s.dlen.toNat = f s.data ∧ Succeeds s t ∧
      Unchanged [] [] (dbufSpan s.dlen.toNat) s t := by
  rw [← hf]
  exact ⟨_, cipherData_aligned s f hfit hest hmod hf, s.dbuf_writeDbuf 0 _, succeeds_complete s _ rfl,
    (unchanged_writeDbuf s _).complete _⟩

end

end

end

/-- R217, R218: each of the four instructions, with its accumulator and its CBC function, is `cipherData` of a function that keeps
the length of whole blocks. -/
theorem exec_eq_cipherData {s : State} {p : Instr × Block × (Block → Block → Bytes → Bytes)}
    (hp : p ∈ [(.encc, s.cmac, cbcEnc), (.encr, s.rmac, cbcEnc), (.decc, s.cmac, cbcDec), (.decr, s.rmac, cbcDec)]) :
    exec p.1 s = cipherData (p.2.2 s.sEnc (p.2.1.map (0xFF - ·))) s ∧
      ∀ d, (p.2.2 s.sEnc (p.2.1.map (0xFF - ·)) d).length = 16 * (d.length / 16) := by
  simp only [List.mem_cons, List.not_mem_nil, or_false] at hp
  obtain rfl | rfl | rfl | rfl := hp
  · exact ⟨cipherIv_eq_map s .command ▸ exec_encInstr s .command, length_cbcEnc _ _⟩
  · exact ⟨cipherIv_eq_map s .reply ▸ exec_encInstr s .reply, length_cbcEnc _ _⟩
  · exact ⟨cipherIv_eq_map s .command ▸ exec_decInstr s .command, length_cbcDec _ _⟩
  · exact ⟨cipherIv_eq_map s .reply ▸ exec_decInstr s .reply, length_cbcDec _ _⟩

/-! ### Encrypted and decrypted again -/

/-- The state in which ENCC or ENCR leaves an established block with whole blocks of data. -/
def State.encrypted (s : State) (d : Dir) : State :=
  (s.writeDbuf 0 (cbcEnc s.sEnc (s.cipherIv d) s.data)).complete 0x00

section
variable {s : State} (d : Dir)

theorem cipherIv_encrypted : (s.encrypted d).cipherIv d = s.cipherIv d := by cases d <;> rfl

section
variable (hmod : s.dlen.toNat % 16 = 0)
include hmod

theorem length_cbcEnc_data (k iv : Block) : (cbcEnc k iv s.data).length = s.dlen.toNat := by
  rw [length_cbcEnc, State.length_data]
  omega

theorem data_encrypted : (s.encrypted d).data = cbcEnc s.sEnc (s.cipherIv d) s.data := by
  have hstored := s.dbuf_writeDbuf 0 (cbcEnc s.sEnc (s.cipherIv d) s.data)
  rwa [length_cbcEnc_data hmod] at hstored

theorem byte_encrypted_outside {a : Nat} (ha : ¬ dbufSpan s.dlen.toNat a) : (s.encrypted d).byte a = s.byte a := by
  refine s.byte_writeDbuf_outside 0 _ a ?_
  rw [length_cbcEnc_data hmod]
  rw [dbufSpan] at ha
  omega

section
variable (hest : s.established = true) (hfit : s.dlen.toNat ≤ 1024)
include hest hfit

theorem exec_encInstr_aligned : exec (encInstr d) s = .next (s.encrypted d) := by
  rw [exec_encInstr]
  exact cipherData_aligned s _ hfit hest hmod (length_cbcEnc_data hmod _ _)

/-- The decryption reads the ciphertext under the same key and IV, so it stores the data that was there. -/
theorem exec_decInstr_encrypted :
    exec (decInstr d) (s.encrypted d) = finish ((s.encrypted d).writeDbuf 0 s.data) := by
  have hest' : (s.encrypted d).established = true := (State.established_complete _ _).trans hest
  have hplain : cbcDec (s.encrypted d).sEnc ((s.encrypted d).cipherIv d) (s.encrypted d).data = s.data := by
    rw [cipherIv_encrypted, data_encrypted d hmod]
    exact cbcDec_cbcEnc _ _ (by rw [State.length_data, hmod])
  rw [exec_decInstr, cipherData_aligned (s.encrypted d) _ hfit hest' hmod (by rw [hplain]; exact s.length_data), hplain]

end

end

end

/-! ### The obligations -/

/-- Settles O37: the input of a short message is one block, and a longer one has its first block before the input of the rest. -/
theorem macChainsUnderBothKeys : Obligations.MacChainsUnderBothKeys := by
  refine fun s m iv => ⟨fun hlt => ?_, fun heq => ?_, fun hgt => ?_⟩
  · have hpad := macInput_of_short hlt
    rw [mac_of_length_macInput s iv (by rw [hpad, length_pad, paddedLen]; omega), hpad]
  · have hwhole := macInput_of_block heq
    rw [mac_of_length_macInput s iv (by rw [hwhole, heq]), hwhole]
  · obtain ⟨b, d, rfl⟩ := exists_toBytes_append_eq hgt.le
    have hd : d ≠ [] := by
      rintro rfl
      simp at hgt
    exact mac_toBytes_append s iv b hd

/-- Settles O38: on block lists each law is the recursion of CBC, and D undoes E block by block. -/
theorem cbcDecryptionInvertsEncryption : Obligations.CbcDecryptionInvertsEncryption := by
  refine ⟨fun _ _ => ⟨rfl, rfl⟩, fun k iv b d hd => ?_, fun k iv _ => cbcDec_cbcEnc k iv⟩
  obtain ⟨bs, rfl⟩ := exists_bytesOf_eq hd
  rw [cbcEnc_bytesOf, cbcDec_bytesOf]
  exact ⟨cbcEnc_bytesOf k iv (b :: bs), cbcDec_bytesOf k iv (b :: bs)⟩

/-- Settles O39: MACC and MACR are one instruction of the direction, whose accumulator is all it writes. -/
theorem maccAndMacrChainTheAccumulators : Obligations.MaccAndMacrChainTheAccumulators := by
  intro s p hp
  obtain ⟨d, rfl⟩ : ∃ d, p = (macInstr d, d) := by
    obtain rfl | rfl : p = (.macc, .command) ∨ p = (.macr, .reply) := by simpa using hp
    exacts [⟨.command, rfl⟩, ⟨.reply, rfl⟩]
  refine ⟨fun hout => ?_, fun hfit hest => ?_, fun hfit hest => ?_⟩
  · exact ⟨_, exec_macInstr_range s d hout, failsCleanly_raise .range s⟩
  · exact ⟨_, exec_macInstr_notest s d hfit hest, failsCleanly_raise .notest s⟩
  · refine ⟨_, exec_macInstr_chains s d hfit hest, ?_, succeeds_complete s _ (err_setAccumulator s d _),
      (unchanged_setAccumulator s d _).complete _⟩
    rw [← chainIv_eq_accumulator_other]
    exact accumulator_setAccumulator s d _

/-- Settles O40: each of the four is `cipherData`, which answers in R217's order. -/
theorem dataCipherInstructionsTransformDbuf : Obligations.DataCipherInstructionsTransformDbuf := by
  intro s p hp
  obtain ⟨hexec, hlen⟩ := exec_eq_cipherData hp
  rw [hexec]
  refine ⟨fun hout => ?_, fun hfit hest => ?_, fun hfit hest hmod => ?_, fun hfit hest hmod => ?_⟩
  · exact ⟨_, cipherData_range s _ hout, failsCleanly_raise .range s⟩
  · exact ⟨_, cipherData_notest s _ hfit hest, failsCleanly_raise .notest s⟩
  · exact ⟨_, cipherData_notaligned s _ hfit hest hmod, failsCleanly_raise .notaligned s⟩
  · have hdata : (p.2.2 s.sEnc (p.2.1.map (0xFF - ·)) s.data).length = s.dlen.toNat := by
      rw [hlen, State.length_data]
      omega
    exact cipherData_transforms s _ hfit hest hmod hdata

/-- Settles O41: both instructions store in DBUF[0..DLEN) alone, and the second stores there what was there at first. -/
theorem decryptingWhatWasEncryptedRestoresTheData : Obligations.DecryptingWhatWasEncryptedRestoresTheData := by
  intro s hest hfit hmod p hp
  obtain ⟨d, rfl⟩ : ∃ d, p = (encInstr d, decInstr d) := by
    obtain rfl | rfl : p = (.encc, .decc) ∨ p = (.encr, .decr) := by simpa using hp
    exacts [⟨.command, rfl⟩, ⟨.reply, rfl⟩]
  refine ⟨_, _, exec_encInstr_aligned d hmod hest hfit, exec_decInstr_encrypted d hmod hest hfit, rfl, fun a => ?_, ?_⟩
  · rw [State.complete_byte]
    exact State.byte_writeDbuf_dbuf s (fun _ => byte_encrypted_outside d hmod) a
  · simp [State.encrypted]

/-- Settles O42: the states agree in what a MAC instruction reads before and after each of them. -/
theorem equalMacStatesStayEqual : Obligations.EqualMacStatesStayEqual := by
  intro is a b his h1 h2 hc hr he hoff hlen hspan
  have hmacInstr : ∀ i ∈ is, ∃ d, i = macInstr d := fun i hi =>
    (his i hi).elim (⟨.command, ·⟩) (⟨.reply, ·⟩)
  obtain ⟨t, u, ht, hu, hsame⟩ := SameMacState.execAll hmacInstr ⟨h1, h2, hc, hr, he, hoff, hlen, hspan⟩
  exact ⟨t, u, ht, hu, hsame.cmac, hsame.rmac⟩

end Sys2Proof.Machine
end

section
/-! The header of a received frame: what PARSE answers before it reads the fields. With one byte changed, a right FCS is
wrong (O50), and the source's secure Poll has no room for its MAC (O48). -/

namespace Sys2Proof.Machine

/-! ### Strings in FBUF -/

section
variable (s : State)

theorem State.fbuf_succ (i n : Nat) : s.fbuf i (n + 1) = s.fbufByte i :: s.fbuf (i + 1) n := rfl

/-- A string stands in FBUF at an offset. -/
def State.HoldsAt (i : Nat) (p : Bytes) : Prop := s.fbuf i p.length = p

theorem State.holdsAt_cons_iff {i : Nat} {b : Byte} {q : Bytes} :
    s.HoldsAt i (b :: q) ↔ s.fbufByte i = b ∧ s.HoldsAt (i + 1) q := by
  rw [State.HoldsAt, List.length_cons, State.fbuf_succ, List.cons.injEq]
  rfl

theorem State.holdsAt_append_iff {i : Nat} {p q : Bytes} :
    s.HoldsAt i (p ++ q) ↔ s.HoldsAt i p ∧ s.HoldsAt (i + p.length) q := by
  rw [State.HoldsAt, List.length_append, State.fbuf_add]
  exact ⟨fun h => List.append_inj h (by simp), fun ⟨hp, hq⟩ => congrArg₂ _ hp hq⟩

end

/-! ### The header of a received frame -/

/-- 46_framer.md R250: the least length that a frame with this control byte can have. -/
def minFrameLen (ctrl : Byte) : Nat := 6 + fcsLen (ctrlCrc ctrl) + if ctrlScb ctrl then 2 else 0

section
variable {s : State}

/-- 30_encoding.md R96: the FCS is right when the frame's last bytes are the FCS of those before them. -/
theorem fcsOk_iff {crc : Bool} {l : Nat} (hl : fcsLen crc ≤ l) :
    s.fcsOk crc l = true ↔ s.fbuf (l - fcsLen crc) (fcsLen crc) = wireFcs crc (s.fbuf 0 (l - fcsLen crc)) := by
  cases crc with
  | false => simp [State.fcsOk, fcsLen, wireFcs, State.fbuf_one]
  | true =>
    have hlast : l - 1 = l - 2 + 1 := by
      simp only [fcsLen, if_true] at hl
      omega
    simp only [State.fcsOk, fcsLen, wireFcs, State.fbuf_two, hlast, if_true, decide_eq_true_eq, List.cons.injEq, and_true]
    refine ⟨fun h => ?_, fun ⟨hlo, hhi⟩ => ?_⟩
    · rw [← h, loByte_mkHalf, hiByte_mkHalf]
      exact ⟨rfl, rfl⟩
    · rw [hlo, hhi, mkHalf_loByte_hiByte]

theorem parseHeader_badsom (hfit : s.flen.toNat ≤ 2048) (hpos : 1 ≤ s.flen.toNat) (hsom : s.fbufByte 0 ≠ Config.som) :
    s.parseHeader = .error .badsom := by
  rw [State.parseHeader, if_neg (by simpa [Config.fbufSize] using hfit), if_neg (by omega), if_pos hsom]

/-- R250: a frame with SOM whose declared length is in FBUF is checked for its least length, and then for its FCS. -/
theorem parseHeader_of_declared (hfit : s.flen.toNat ≤ 2048) (hfive : 5 ≤ s.flen.toNat) (hsom : s.fbufByte 0 = Config.som)
    (hlen : s.declaredLen ≤ s.flen.toNat) : s.parseHeader =
      if s.declaredLen < minFrameLen (s.fbufByte 4) then .error .length
      else if s.fcsOk (ctrlCrc (s.fbufByte 4)) s.declaredLen = false then .error .checksum
      else .ok s.declaredLen := by
  rw [State.parseHeader, if_neg (by simpa [Config.fbufSize] using hfit), if_neg (by omega),
    if_neg (not_not_intro hsom), if_neg (by omega)]
  exact if_neg (by omega)

theorem parseLayout_of_header_error {e : ErrCode} (h : s.parseHeader = .error e) : s.parseLayout = .error e := by
  rw [State.parseLayout, h]

/-- R250: once the checks of the header and of the security block have passed, those of the body follow. -/
theorem parseLayout_of_header_scb {l : Nat} {scb : Byte × Byte × Byte} (h : s.parseHeader = .ok l)
    (hscb : s.parseScb (s.fbufByte 4) l = .ok scb) : s.parseLayout = s.parseBody (s.fbufByte 4) l scb := by
  simp only [State.parseLayout, h, hscb]

theorem exec_parse_of_error {e : ErrCode} (h : s.parseLayout = .error e) : exec .parse s = raiseMatchError e s := by
  rw [exec, execParse, h]

theorem exec_parse_of_ok {y : Layout} (h : s.parseLayout = .ok y) : exec .parse s =
    if s.macGood y then finish ((s.withParsed y).setMatched true) else raiseMatchError .macmismatch (s.withParsed y) := by
  rw [exec, execParse, h]

/-- R282: an error of the checks before the MAC's is the error, MATCH 0 and nothing else. -/
theorem exec_parse_failsUnmatched {e : ErrCode} (h : s.parseLayout = .error e) :
    ∃ u, exec .parse s = .next u ∧ FailsUnmatched e s u :=
  ⟨_, exec_parse_of_error h, failsUnmatched_raise e s⟩

end

/-! ### One byte changed (O50) -/

/-- A byte of FBUF stored: every string that holds its offset has that byte replaced. -/
theorem State.fbuf_writeFbuf_byte (s : State) {k n : Nat} (v : Byte) :
    (s.writeFbuf k [v]).fbuf 0 n = (s.fbuf 0 n).set k v := by
  apply List.ext_getElem (by simp)
  intro j hj hj'
  simp only [List.getElem_set, State.getElem_fbuf, State.fbufByte_writeFbuf_byte, Nat.zero_add, eq_comm]

/-- 46_framer.md R253: after a byte of a frame with a right FCS is changed, the FCS is wrong. -/
theorem fcsOk_writeFbuf_byte {s : State} {crc : Bool} {l k : Nat} {v : Byte} (hl : fcsLen crc ≤ l)
    (hfcs : s.fcsOk crc l = true) (hk : k < l) (hv : v ≠ s.fbufByte k) : (s.writeFbuf k [v]).fcsOk crc l = false := by
  have hsplit (t : State) : t.fbuf 0 l = t.fbuf 0 (l - fcsLen crc) ++ t.fbuf (l - fcsLen crc) (fcsLen crc) := by
    have hadd := t.fbuf_add 0 (l - fcsLen crc) (fcsLen crc)
    rwa [Nat.sub_add_cancel hl, Nat.zero_add] at hadd
  have hframe := hsplit s
  rw [(fcsOk_iff hl).1 hfcs] at hframe
  have hbyte : (s.fbuf 0 l)[k]'(by simpa using hk) = s.fbufByte k := by rw [State.getElem_fbuf, Nat.zero_add]
  rw [← Bool.not_eq_true, fcsOk_iff hl]
  intro hright
  have hchanged := hsplit (s.writeFbuf k [v])
  rw [hright, State.fbuf_writeFbuf_byte, hframe] at hchanged
  refine set_append_wireFcs_ne crc ?_ ?_ hchanged
  · rw [← hframe, State.length_fbuf]
    exact hk
  · simpa only [← hframe, hbyte] using hv

theorem State.toNat_declaredLen (s : State) : s.declaredLen = (s.fbufByte 2).toNat + 256 * (s.fbufByte 3).toNat :=
  toNat_mkHalf _ _

/-- Settles O50: only byte 0 is SOM, and only byte 4 moves the least length, so the FCS is what fails for every other byte,
and for byte 4 too unless the least length grew. -/
theorem parseAcceptsNoFrameWithOneByteChanged : Obligations.ParseAcceptsNoFrameWithOneByteChanged := by
  intro s k v b l crc c hfit hsom hlen hmin hfcs hk hv h2 h3 h4 s'
  have hc : fcsLen crc ≤ l := by
    have : fcsLen crc = c := rfl
    omega
  have hfive : 5 ≤ s.flen.toNat := by omega
  have hbyte (j : Nat) : s'.fbufByte j = if j = k then v else s.fbufByte j := s.fbufByte_writeFbuf_byte k j v
  have hl : s'.declaredLen = l := by
    rw [State.toNat_declaredLen, hbyte, hbyte, if_neg (Ne.symm h2), if_neg (Ne.symm h3)]
  by_cases h0 : k = 0
  · subst h0
    have hsom' : s'.fbufByte 0 ≠ Config.som := by
      rw [hbyte, if_pos rfl]
      exact fun h => hv (h.trans hsom.symm)
    obtain ⟨u, hu, hfails⟩ := exec_parse_failsUnmatched
      (parseLayout_of_header_error (parseHeader_badsom (s := s') hfit (by omega : 1 ≤ s.flen.toNat) hsom'))
    exact ⟨u, hu, fun _ => hfails, fun h => absurd rfl h, fun h => absurd h (by decide)⟩
  · have hsom' : s'.fbufByte 0 = Config.som := by
      rw [hbyte, if_neg (Ne.symm h0)]
      exact hsom
    have hbit {n : Nat} (hflag : k = 4 → v.getLsbD n = (b 4).getLsbD n) :
        (s'.fbufByte 4).getLsbD n = (b 4).getLsbD n := by
      rw [hbyte]
      split
      · exact hflag (Eq.symm ‹_›)
      · rfl
    have hcrc : ctrlCrc (s'.fbufByte 4) = crc := hbit h4
    have hwrong : s'.fcsOk crc l = false := fcsOk_writeFbuf_byte hc ((fcsOk_iff hc).2 hfcs) hk hv
    have hheader := parseHeader_of_declared (s := s') hfit hfive hsom' (hl ▸ hlen)
    rw [hl, hcrc, if_pos hwrong] at hheader
    have hkept (hflag : k = 4 → v.getLsbD 3 = (b 4).getLsbD 3) : minFrameLen (s'.fbufByte 4) ≤ l := by
      have hscb : ctrlScb (s'.fbufByte 4) = ctrlScb (s.fbufByte 4) := hbit hflag
      rw [minFrameLen, hcrc, hscb]
      exact hmin
    split at hheader
    · obtain ⟨u, hu, hfails⟩ := exec_parse_failsUnmatched (parseLayout_of_header_error hheader)
      exact ⟨u, hu, fun h => absurd h h0, fun _ hflag => absurd (hkept hflag) (by omega), fun _ => .inr hfails⟩
    · obtain ⟨u, hu, hfails⟩ := exec_parse_failsUnmatched (parseLayout_of_header_error hheader)
      exact ⟨u, hu, fun h => absurd h h0, fun _ _ => hfails, fun _ => .inl hfails⟩

/-! ### The source's secure Poll (O48) -/

/-- Settles O48: the frame's FCS is right and its security block well formed, but it has no room for the MAC of its type. -/
theorem parseOfTheSourcesSecurePollRaisesLength : Obligations.ParseOfTheSourcesSecurePollRaisesLength := by
  intro s hflen hframe
  have hbytes : s.fbufByte 0 = 0x53 ∧ s.fbufByte 2 = 0x0A ∧ s.fbufByte 3 = 0x00 ∧ s.fbufByte 4 = 0x0C ∧
      s.fbufByte 5 = 0x02 ∧ s.fbufByte 6 = 0x15 := by
    simp only [State.fbuf_succ, List.cons.injEq] at hframe
    tauto
  obtain ⟨hsom, hlo, hhi, hctrl, hscblen, hscs⟩ := hbytes
  have hten : s.flen.toNat = 10 := by rw [hflen]; rfl
  have hl : s.declaredLen = 10 := by rw [State.toNat_declaredLen, hlo, hhi]; rfl
  have hfcs : s.fcsOk true 10 = true := by
    obtain ⟨-, -, hcrc, -⟩ := crc16MatchesTheCapturedFrames
    have hsplit : s.fbuf 0 8 ++ s.fbuf 8 2 = [0x53, 0x00, 0x0A, 0x00, 0x0C, 0x02, 0x15, 0x60] ++ [0x58, 0xD5] :=
      (s.fbuf_add 0 8 2).symm.trans hframe
    obtain ⟨hbody, htail⟩ := List.append_inj' hsplit rfl
    refine (fcsOk_iff (by decide)).2 (htail.trans ?_)
    simp only [fcsLen, if_true, Nat.reduceSub, hbody, wireFcs, hcrc]
    rfl
  have hheader : s.parseHeader = .ok 10 := by
    rw [parseHeader_of_declared (by omega) (by omega) hsom (by omega), hl, hctrl]
    exact (if_neg (by decide)).trans (if_neg (by simp [ctrlCrc, hfcs]))
  refine exec_parse_failsUnmatched ?_
  rw [parseLayout_of_header_scb (scb := (0x02, 0x15, 0x00)) hheader, hctrl]
  · rfl
  · simp only [State.parseScb, hctrl, hscblen, hscs]
    rfl

end Sys2Proof.Machine
end

section
/-! A wire frame by its fields: where they stand in FBUF, and that PARSE's checks pass on a well-formed one. -/

namespace Sys2Proof.Machine

/-- 30_encoding.md R93. -/
theorem scbLenValid_iff {l : Byte} : scbLenValid l = true ↔ l = 2 ∨ l = 3 := by simp [scbLenValid]

/-! ### The fields of a frame -/

/-- The fields of a wire frame (30_encoding.md R88): its header, its security block's three bytes, its data as sent, and its MAC
bytes. A frame without a security block has its type and length 0, as PARSE reports them (46_framer.md R250). -/
structure WireFrame where
  addr : Byte
  ctrl : Byte
  code : Byte
  scblen : Byte
  scs : Byte
  scbdata : Byte
  data : Bytes
  mac : Bytes

namespace WireFrame

/-- R93: the security block, when the control byte says there is one. -/
def scb (f : WireFrame) : Bytes := if f.ctrl.getLsbD 3 then wireScb f.scblen f.scs f.scbdata else []

/-- R95: the total length. -/
def len (f : WireFrame) : Nat := wireLength f.ctrl f.scb f.data f.mac

/-- R88: the frame from SOM to the end of the data, which is what the MAC is over. -/
def body (f : WireFrame) : Bytes := wireBody f.len f.addr f.ctrl f.scb f.code f.data

/-- R88: the whole frame. -/
def bytes (f : WireFrame) : Bytes := wireFrame f.addr f.ctrl f.scb f.code f.data f.mac

/-- Where PARSE finds the fields of this frame. -/
def layout (f : WireFrame) : Layout :=
  ⟨f.ctrl, f.scblen, f.scs, f.scbdata, 6 + f.scblen.toNat, 6 + f.scblen.toNat + f.data.length⟩

/-- The frames that PARSE takes fields from: a supported security block or none, data that fits DBUF and comes in whole blocks
when encrypted, and four bytes of MAC exactly for a MAC type. -/
structure WellFormed (f : WireFrame) : Prop where
  scbPresent : f.ctrl.getLsbD 3 = true → scsValid f.scs = true ∧ (f.scblen = 2 ∨ f.scblen = 3)
  scbAbsent : f.ctrl.getLsbD 3 = false → f.scs = 0 ∧ f.scblen = 0
  scbdata : f.scblen ≠ 3 → f.scbdata = 0
  data : f.data.length ≤ 1024
  aligned : scsEncrypts f.scs = true → f.data.length % 16 = 0
  mac : f.mac.length = macLen f.scs

theorem len_eq (f : WireFrame) : f.len = 6 + f.scb.length + f.data.length + f.mac.length + fcsLen (ctrlCrc f.ctrl) := rfl

theorem length_body (f : WireFrame) : f.body.length = 6 + f.scb.length + f.data.length := by
  simp [body, wireBody]
  omega

theorem bytes_eq (f : WireFrame) : f.bytes = f.body ++ f.mac ++ wireFcs (ctrlCrc f.ctrl) (f.body ++ f.mac) := rfl

theorem length_bytes (f : WireFrame) : f.bytes.length = f.len := by
  simp only [bytes_eq, List.length_append, length_wireFcs, length_body, len_eq]

/-- The frame's fields stand in FBUF in R88's order. -/
structure In (f : WireFrame) (s : State) : Prop where
  fits : f.len ≤ s.flen.toNat
  flen : s.flen.toNat ≤ 2048
  som : s.fbufByte 0 = Config.som
  addr : s.fbufByte 1 = f.addr
  declaredLen : s.declaredLen = f.len
  ctrl : s.fbufByte 4 = f.ctrl
  scb : s.HoldsAt 5 f.scb
  code : s.fbufByte (5 + f.scb.length) = f.code
  body : s.fbuf 0 (6 + f.scb.length + f.data.length) = f.body
  data : s.HoldsAt (6 + f.scb.length) f.data
  mac : s.HoldsAt (6 + f.scb.length + f.data.length) f.mac
  fcs : s.fcsOk (ctrlCrc f.ctrl) f.len = true

theorem toNat_lengthBytes {l : Nat} (h : l ≤ 2048) :
    (BitVec.ofNat 8 (l % 256)).toNat + 256 * (BitVec.ofNat 8 (l / 256)).toNat = l := by
  simp only [BitVec.toNat_ofNat]
  omega

theorem in_of_holdsFrame {f : WireFrame} {s : State} (h : HoldsFrame s f.bytes) : f.In s := by
  obtain ⟨hfits, hflen, hbytes⟩ := h
  rw [length_bytes] at hfits
  obtain ⟨hbodyMac, hfcs⟩ := s.holdsAt_append_iff.1 (f.bytes_eq ▸ hbytes)
  obtain ⟨hbody, hmac⟩ := s.holdsAt_append_iff.1 hbodyMac
  have hparts := hbody
  simp only [body, wireBody, State.holdsAt_append_iff, State.holdsAt_cons_iff, List.length_append, List.length_cons,
    List.length_nil, Nat.zero_add, Nat.reduceAdd] at hparts
  obtain ⟨⟨⟨⟨hsom, haddr, hlo, hhi, hctrl, -⟩, hscb⟩, hcode, -⟩, hdata⟩ := hparts
  rw [State.HoldsAt, length_body] at hbody
  rw [length_body, Nat.zero_add] at hmac
  have hend : f.len - fcsLen (ctrlCrc f.ctrl) = (f.body ++ f.mac).length := by
    rw [len_eq, List.length_append, length_body, Nat.add_sub_cancel]
  have hfcsLen : fcsLen (ctrlCrc f.ctrl) ≤ f.len := by
    rw [len_eq]
    exact Nat.le_add_left _ _
  refine ⟨hfits, hflen, hsom, haddr, ?_, hctrl, hscb, hcode, hbody, ?_, hmac, (fcsOk_iff hfcsLen).2 ?_⟩
  · rw [State.toNat_declaredLen, hlo, hhi]
    exact toNat_lengthBytes (hfits.trans hflen)
  · rwa [show 6 + f.scb.length = 5 + f.scb.length + 1 by omega]
  · rw [hend, show s.fbuf 0 (f.body ++ f.mac).length = _ from hbodyMac]
    rwa [State.HoldsAt, length_wireFcs, Nat.zero_add] at hfcs

/-! ### What PARSE finds -/

theorem WellFormed.length_scb {f : WireFrame} (hf : f.WellFormed) : f.scb.length = f.scblen.toNat := by
  unfold scb
  cases hflag : f.ctrl.getLsbD 3 with
  | false => simp [(hf.scbAbsent hflag).2]
  | true =>
    obtain ⟨-, hl | hl⟩ := hf.scbPresent hflag <;> simp [wireScb, hl]

/-- R250: the body's checks pass. -/
theorem parseBody_eq {f : WireFrame} {s : State} (hf : f.WellFormed) (hest : scsHasMac f.scs = true → s.established = true) :
    s.parseBody f.ctrl f.len (f.scblen, f.scs, f.scbdata) = .ok f.layout := by
  have hlen := f.len_eq
  rw [hf.length_scb, hf.mac] at hlen
  have hde : f.len - fcsLen (ctrlCrc f.ctrl) - macLen f.scs = 6 + f.scblen.toNat + f.data.length := by omega
  have hdata := hf.data
  simp only [State.parseBody, hde, Nat.add_sub_cancel_left]
  rw [if_neg (by omega), if_neg (by simpa using hest), if_neg (by simpa [Config.dbufSize] using hdata),
    if_neg fun ⟨henc, hmod⟩ => hmod (hf.aligned henc)]
  rfl

section
variable {f : WireFrame} {s : State} (hf : f.WellFormed) (h : f.In s)
include hf h

/-- 46_framer.md R250: the header's checks pass. -/
theorem parseHeader_eq : s.parseHeader = .ok f.len := by
  have hmin : minFrameLen f.ctrl ≤ f.len := by
    have hscb : (if ctrlScb f.ctrl then 2 else 0) ≤ f.scb.length := by
      rw [hf.length_scb]
      split
      · obtain ⟨-, hl | hl⟩ := hf.scbPresent ‹_› <;> simp [hl]
      · exact Nat.zero_le _
    rw [minFrameLen, len_eq]
    omega
  have hlen := h.declaredLen
  have hfive : 5 ≤ s.flen.toNat := by
    have := h.fits
    rw [minFrameLen] at hmin
    omega
  rw [parseHeader_of_declared h.flen hfive h.som (hlen ▸ h.fits), h.ctrl, hlen, h.fcs]
  exact (if_neg (by omega)).trans (if_neg (by decide))

/-- 30_encoding.md R93: the security block's bytes, where PARSE reads them. -/
theorem scb_bytes (hflag : f.ctrl.getLsbD 3 = true) : s.fbufByte 5 = f.scblen ∧ s.fbufByte 6 = f.scs ∧
    (if f.scblen = 3 then s.fbufByte 7 else 0x00) = f.scbdata := by
  have hscb := h.scb
  rw [scb, if_pos hflag, wireScb] at hscb
  split at hscb
  · rw [if_pos ‹_›]
    simp only [State.holdsAt_cons_iff] at hscb
    obtain ⟨h5, h6, h7, -⟩ := hscb
    exact ⟨h5, h6, h7⟩
  · rw [if_neg ‹_›, hf.scbdata ‹_›]
    simp only [State.holdsAt_cons_iff] at hscb
    obtain ⟨h5, h6, -⟩ := hscb
    exact ⟨h5, h6, rfl⟩

/-- R250: the security block's checks pass. -/
theorem parseScb_eq : s.parseScb f.ctrl f.len = .ok (f.scblen, f.scs, f.scbdata) := by
  have hlen : 6 + f.scblen.toNat + fcsLen (ctrlCrc f.ctrl) ≤ f.len := by
    rw [len_eq, hf.length_scb]
    omega
  unfold State.parseScb ctrlScb
  cases hflag : f.ctrl.getLsbD 3 with
  | false =>
    obtain ⟨hscs, hl⟩ := hf.scbAbsent hflag
    simp [hscs, hl, hf.scbdata (by simp [hl])]
  | true =>
    obtain ⟨hvalid, hl⟩ := hf.scbPresent hflag
    have hlenValid := scbLenValid_iff.2 hl
    obtain ⟨h5, h6, h7⟩ := scb_bytes hf h hflag
    simp only [h5, h6, h7, hvalid, hlenValid, Bool.true_eq_false, or_self, if_true, if_false]
    exact if_neg (by omega)

theorem parseLayout_eq (hest : scsHasMac f.scs = true → s.established = true) : s.parseLayout = .ok f.layout := by
  rw [parseLayout_of_header_scb (parseHeader_eq hf h) (h.ctrl.symm ▸ parseScb_eq hf h), h.ctrl, parseBody_eq hf hest]

end

end WireFrame

end Sys2Proof.Machine
end

section
/-! PARSE of a well-formed frame: accepted with a right MAC (O45), and refused with a wrong one after its fields are
written (O46). -/

namespace Sys2Proof.Machine

/-! ### The accumulator, and what the framer leaves unchanged -/

/-- Two frames one after the other, of which the first stores nothing. -/
theorem Unchanged.andThen {regs regs' : List Reg} {flags : List Flag} {stored : Nat → Prop} {s t u : State}
    (h : Unchanged regs [] noStore s t) (h' : Unchanged regs' flags stored t u) :
    Unchanged (regs' ++ regs) flags stored s u := by
  obtain ⟨hr, hf, hb, hw, hg, hl, hbr, hlat, hh, ha⟩ := h
  obtain ⟨hr', hf', hb', hw', hg', hl', hbr', hlat', hh', ha'⟩ := h'
  refine ⟨fun r hn i => ?_, fun f hn => ?_, fun a hn => (hb' a hn).trans (hb a id), hw'.trans hw, hg'.trans hg,
    hl'.trans hl, hbr'.trans hbr, hlat'.trans hlat, hh'.trans hh, ha'.trans ha⟩
  · simp only [List.mem_cons, List.mem_append, not_or] at hn
    obtain ⟨hst, her, hn', hn⟩ := hn
    rw [hr' r (by simp [hst, her, hn']), hr r (by simp [hst, her, hn])]
  · simp only [List.mem_cons, not_or] at hn
    obtain ⟨hbusy, hdone, herr, hn⟩ := hn
    rw [hf' f (by simp [hbusy, hdone, herr, hn]), hf f (by simp [hbusy, hdone, herr])]

section
variable (s : State) (scs : Byte) (m : Block)

/-- The MAC of a frame of a type stored as BUILD and PARSE store it: in its direction's accumulator when the type has a MAC. -/
def State.withMac : State := if scsHasMac scs then s.setAccumulator (scsDir scs) m else s

/-- The register a frame of a type overwrites with its MAC, if any. -/
def macRegs : List Reg := if scsHasMac scs then [accumulatorReg (scsDir scs)] else []

theorem unchanged_withMac : Unchanged (macRegs scs) [] noStore s (s.withMac scs m) := by
  unfold macRegs State.withMac
  split
  · exact unchanged_setAccumulator s _ m
  · exact .refl _ _ _ s

theorem accumulator_withMac (d : Dir) :
    (s.withMac scs m).accumulator d = if scsHasMac scs = true ∧ scsDir scs = d then m else s.accumulator d := by
  unfold State.withMac
  cases scsHasMac scs
  · rfl
  · cases scsDir scs <;> cases d <;> rfl

theorem accumulator_complete (c : Byte) (d : Dir) : (s.complete c).accumulator d = s.accumulator d := by cases d <;> rfl

theorem accumulator_setStatusBit (n : Nat) (v : Bool) (d : Dir) : (s.setStatusBit n v).accumulator d = s.accumulator d := by
  cases d <;> rfl

end

/-- The registers that PARSE writes the header's fields to (46_framer.md R250). -/
def headerRegs : List Reg := [.addr, .seq, .rxctrl, .code, .scs, .scblen, .scbdata, .dlen]

section
variable (s : State) (y : Layout)

theorem accumulator_withParsed (d : Dir) : (s.withParsed y).accumulator d =
    if scsHasMac y.scs = true ∧ scsDir y.scs = d then s.rxMac y else s.accumulator d := by
  rw [← accumulator_withMac]
  cases d <;> rfl

/-- 46_framer.md R250: PARSE's writes. -/
theorem unchanged_withParsed (flags : List Flag) :
    Unchanged (headerRegs ++ macRegs y.scs) flags (dbufSpan (s.rxData y).length) s (s.withParsed y) := by
  refine (unchanged_withMac s y.scs (s.rxMac y)).andThen ?_
  have hkept (t : State) (d : Bytes) : Unchanged headerRegs flags (dbufSpan d.length) t { t.writeDbuf 0 d with
      addr := s.fbufByte 1, seq := y.ctrl &&& seqMask, rxctrl := y.ctrl, scblen := y.scblen, scs := y.scs,
      scbdata := y.scbdata, code := s.fbufByte (5 + y.scblen.toNat), dlen := BitVec.ofNat 16 (y.de - y.ds) } := by
    refine ⟨fun r hr i => ?_, fun f _ => ?_, fun a ha => ?_, .refl t⟩
    · cases r
      case addr | seq | rxctrl | code | scs | scblen | scbdata | dlen => simp [headerRegs] at hr
      all_goals rfl
    · cases f <;> rfl
    · refine State.byte_writeDbuf_outside t 0 d a ?_
      rw [dbufSpan] at ha
      omega
  exact hkept _ _

theorem err_withParsed : (s.withParsed y).err = s.err := by
  obtain ⟨-, -, -, hstatus, -⟩ := s.withParsed_keeps y
  rw [State.err, hstatus, State.err]

theorem dbuf_withParsed : (s.withParsed y).dbuf 0 (s.rxData y).length = s.rxData y :=
  State.dbuf_writeDbuf (s.withMac y.scs (s.rxMac y)) 0 (s.rxData y)

end

/-- 30_encoding.md R94: the MAC types are among the valid ones. -/
theorem scsValid_of_hasMac {scs : Byte} (h : scsHasMac scs = true) : scsValid scs = true := by
  rw [scsHasMac_iff] at h
  rw [scsValid_iff]
  omega

/-! ### A frame received -/

namespace WireFrame

section
variable (f : WireFrame) (s : State)

/-- R250: the MAC of the frame, chained from the other direction's accumulator. -/
def macIn : Block := s.mac f.body (s.accumulator (scsDir f.scs).other)

/-- R250: the data of the frame, decrypted under the direction's own accumulator for an encrypting type with data. -/
def plainData : Bytes :=
  if scsEncrypts f.scs = true ∧ 0 < f.data.length then
    cbcDec s.sEnc ((s.accumulator (scsDir f.scs)).map (0xFF - ·)) f.data
  else f.data

end

/-- R250: `t` holds the fields of the frame that `s` received, with the data `d`, and is otherwise `s`. -/
structure Received (f : WireFrame) (d : Bytes) (s t : State) : Prop where
  addr : t.addr = f.addr
  seq : t.seq = f.ctrl &&& seqMask
  rxctrl : t.rxctrl = f.ctrl
  code : t.code = f.code
  scs : t.scs = f.scs
  scblen : t.scblen = f.scblen
  scbdata : t.scbdata = f.scbdata
  dlen : t.dlen.toNat = f.data.length
  dbuf : t.dbuf 0 f.data.length = d
  accumulator : ∀ dir, t.accumulator dir =
    if scsHasMac f.scs = true ∧ scsDir f.scs = dir then f.macIn s else s.accumulator dir
  unchanged : Unchanged (headerRegs ++ macRegs f.scs) [.matched] (dbufSpan f.data.length) s t

/-- MATCH written and the completion leave what was received alone. -/
theorem Received.complete_setMatched {f : WireFrame} {d : Bytes} {s u : State} (h : f.Received d s u) (v : Bool) (c : Byte) :
    f.Received d s ((u.setMatched v).complete c) :=
  { h with
    accumulator := fun dir => by
      rw [accumulator_complete, State.setMatched_eq, accumulator_setStatusBit, h.accumulator]
    unchanged := (h.unchanged.setStatusBit .matched v (by simp)).complete c }

section
variable {f : WireFrame} {s : State} (hf : f.WellFormed) (h : f.In s)
include hf h

theorem rxMac_layout : s.rxMac f.layout = f.macIn s := by
  have hbody := h.body
  rw [hf.length_scb] at hbody
  rw [State.rxMac, State.dirMac, chainIv_eq_accumulator_other]
  exact congrArg (s.mac · _) hbody

theorem macGood_layout_iff : s.macGood f.layout = true ↔
    (scsHasMac f.scs = true → f.mac = (f.macIn s).toBytes.take 4) := by
  have hmac := h.mac
  rw [State.HoldsAt, hf.length_scb, hf.mac, macLen] at hmac
  rw [State.macGood, rxMac_layout hf h, Bool.or_eq_true, Bool.not_eq_true', beq_iff_eq]
  cases hm : scsHasMac f.scs with
  | false => exact iff_of_true (.inl hm) fun h => nomatch h
  | true =>
    rw [hm, if_pos rfl] at hmac
    rw [← hmac]
    simp [layout, hm]

theorem rxData_layout : s.rxData f.layout = if s.macGood f.layout then f.plainData s else f.data := by
  have hdata := h.data
  rw [State.HoldsAt, hf.length_scb] at hdata
  have hlen : f.layout.de - f.layout.ds = f.data.length := Nat.add_sub_cancel_left _ _
  have hraw : s.fbuf f.layout.ds f.data.length = f.data := hdata
  simp only [State.rxData, plainData, hlen, hraw, ← cipherIv_eq_map]
  cases s.macGood f.layout <;> simp [layout]

theorem length_rxData_layout : (s.rxData f.layout).length = f.data.length := by
  have hcbc (henc : scsEncrypts f.scs = true) (k iv : Block) : (cbcDec k iv f.data).length = f.data.length := by
    have := hf.aligned henc
    rw [length_cbcDec]
    omega
  rw [rxData_layout hf h, plainData]
  split
  · split
    · next henc => exact hcbc henc.1 _ _
    · rfl
  · rfl

/-- R250: what PARSE writes before it reports. -/
theorem received_withParsed : f.Received (s.rxData f.layout) s (s.withParsed f.layout) where
  addr := h.addr
  seq := rfl
  rxctrl := rfl
  code := by
    rw [← h.code, hf.length_scb]
    rfl
  scs := rfl
  scblen := rfl
  scbdata := rfl
  dlen := by
    have := hf.data
    simp only [State.withParsed, layout, Nat.add_sub_cancel_left, BitVec.toNat_ofNat]
    omega
  dbuf := by
    rw [← length_rxData_layout hf h]
    exact dbuf_withParsed s f.layout
  accumulator := rxMac_layout hf h ▸ accumulator_withParsed s f.layout
  unchanged := by
    rw [← length_rxData_layout hf h]
    exact unchanged_withParsed s f.layout _

section
variable (hest : scsHasMac f.scs = true → s.established = true)
include hest

/-- R250: a frame with a right MAC, or of a type without one, is accepted. -/
theorem exec_parse_accepts (hmac : scsHasMac f.scs = true → f.mac = (f.macIn s).toBytes.take 4) :
    ∃ t, exec .parse s = .next t ∧ f.Received (f.plainData s) s t ∧ t.matched = true ∧ Succeeds s t := by
  have hgood := (macGood_layout_iff hf h).2 hmac
  have hreceived := received_withParsed hf h
  rw [rxData_layout hf h, if_pos hgood] at hreceived
  rw [exec_parse_of_ok (parseLayout_eq hf h hest), if_pos hgood]
  exact ⟨_, rfl, hreceived.complete_setMatched true 0x00, by simp, succeeds_complete s _ (by simp [err_withParsed])⟩

/-- R250, 60_exceptions.md R282: a frame with a wrong MAC is refused after its fields are written. -/
theorem exec_parse_macmismatch (hm : scsHasMac f.scs = true) (hmac : f.mac ≠ (f.macIn s).toBytes.take 4) :
    ∃ t, exec .parse s = .next t ∧ f.Received f.data s t ∧ t.matched = false ∧ Fails .macmismatch t := by
  have hbad : ¬ s.macGood f.layout = true := fun hgood => hmac ((macGood_layout_iff hf h).1 hgood hm)
  have hreceived := received_withParsed hf h
  rw [rxData_layout hf h, if_neg hbad] at hreceived
  rw [exec_parse_of_ok (parseLayout_eq hf h hest), if_neg hbad]
  exact ⟨_, rfl, hreceived.complete_setMatched false _, by simp, fails_complete .macmismatch _⟩

end

end

end WireFrame

/-- Settles O45: the statement's fields are a well-formed frame in FBUF with a right MAC. -/
theorem parseAcceptsAWellFormedFrame : Obligations.ParseAcceptsAWellFormedFrame := by
  intro s addr ctrl code scblen scs scbdata data mac4 scb d mac dec hpresent habsent hscbdata hdata haligned
    hmac hnomac hholds
  let f : WireFrame := ⟨addr, ctrl, code, scblen, scs, scbdata, data, mac4⟩
  have hmacLen : mac4.length = macLen scs := by
    rw [macLen]
    split
    · next hm => exact (hmac hm).2.1
    · next hm => simp [hnomac (by simpa using hm)]
  have hblocks (henc : scsEncrypts scs = true) : data.length % 16 = 0 := by
    obtain hnil | hpos := Nat.eq_zero_or_pos data.length
    · rw [hnil]
    · exact haligned ⟨henc, hpos⟩
  have hf : f.WellFormed := ⟨hpresent, habsent, hscbdata, hdata, hblocks, hmacLen⟩
  obtain ⟨t, ht, hr, hmatched, hsucceeds⟩ := WireFrame.exec_parse_accepts hf (WireFrame.in_of_holdsFrame hholds)
    (fun hm => (hmac hm).1) (fun hm => (hmac hm).2.2)
  exact ⟨t, ht, hr.addr, hr.seq, hr.rxctrl, hr.code, hr.scs, hr.scblen, hr.scbdata, hr.dlen,
    fun hdec => hr.dbuf.trans (if_pos hdec), fun hdec => hr.dbuf.trans (if_neg hdec),
    fun hm => (hr.accumulator d).trans (if_pos ⟨hm, rfl⟩), hmatched, hsucceeds, hr.unchanged⟩

/-- Settles O46: the statement's fields are a well-formed frame in FBUF whose MAC is not the regenerated one. -/
theorem parseReportsMacMismatchAndKeepsTheFields : Obligations.ParseReportsMacMismatchAndKeepsTheFields := by
  intro s addr ctrl code scblen scs scbdata data mac4 scb d mac hflag hm hl hscbdata hdata haligned hest
    hlen hwrong hholds
  let f : WireFrame := ⟨addr, ctrl, code, scblen, scs, scbdata, data, mac4⟩
  have hscb : f.scb = scb := if_pos hflag
  have hmacIn : f.macIn s = mac := by rw [WireFrame.macIn, WireFrame.body, WireFrame.len, hscb]
  have hbytes : f.bytes = wireFrame addr ctrl scb code data mac4 := by rw [WireFrame.bytes, hscb]
  have hmacLen : mac4.length = macLen scs := by rw [macLen, if_pos hm, hlen]
  have hf : f.WellFormed := ⟨fun _ => ⟨scsValid_of_hasMac hm, hl⟩, fun hno => absurd (hno.symm.trans hflag) (by decide),
    hscbdata, hdata, haligned, hmacLen⟩
  have h : f.In s := WireFrame.in_of_holdsFrame (hbytes ▸ hholds)
  obtain ⟨t, ht, hr, hmatched, hfails⟩ := WireFrame.exec_parse_macmismatch hf h (fun _ => hest) hm (hmacIn ▸ hwrong)
  have hunchanged := hr.unchanged
  rw [macRegs, if_pos hm, headerRegs] at hunchanged
  exact ⟨t, ht, hfails, hmatched, hr.addr, hr.seq, hr.rxctrl, hr.code, hr.scs, hr.scblen, hr.scbdata, hr.dlen, hr.dbuf,
    (hr.accumulator d).trans ((if_pos ⟨hm, rfl⟩).trans hmacIn), hunchanged⟩

end Sys2Proof.Machine
end

section
/-! BUILD composes the wire frame of its registers (O43). -/

namespace Sys2Proof.Machine

/-! ### A frame built -/

section
variable (s : State) (scs scblen : Byte)

theorem loByte_ofNat (l : Nat) : loByte (BitVec.ofNat 16 l) = BitVec.ofNat 8 (l % 256) := by
  apply BitVec.eq_of_toNat_eq
  simp only [toNat_loByte, BitVec.toNat_ofNat]
  omega

theorem hiByte_ofNat (l : Nat) : hiByte (BitVec.ofNat 16 l) = BitVec.ofNat 8 (l / 256) := by
  apply BitVec.eq_of_toNat_eq
  simp only [toNat_hiByte, BitVec.toNat_ofNat]
  omega

/-- 46_framer.md R240: the four bytes of MAC in a frame of a MAC type. -/
def State.frameMac4 : Bytes := if scsHasMac scs then (s.frameMac scs scblen).toBytes.take 4 else []

theorem State.length_frameMac4 : (s.frameMac4 scs scblen).length = macLen scs := by
  unfold State.frameMac4 macLen
  split <;> simp

theorem State.securityBlock_eq :
    s.securityBlock scs scblen = if scs = 0 then [] else wireScb scblen scs s.scbdata := rfl

theorem State.frameBody_eq : s.frameBody scs scblen =
    wireBody (s.frameLen scs scblen) s.addr (s.controlByte scs) (s.securityBlock scs scblen) s.code (s.wireData scs) := by
  simp only [State.frameBody, wireBody, loByte_ofNat, hiByte_ofNat]
  rfl

theorem appendFcs_eq (crc : Bool) (f : Bytes) : appendFcs crc f = f ++ wireFcs crc f := by cases crc <;> rfl

/-- 30_encoding.md R91: the fields of a control byte composed as BUILD does. -/
theorem controlBits_fields (crc scb : Bool) (q : Byte) :
    let ctrl := (q &&& seqMask) ||| (if crc then 0x04 else 0x00) ||| (if scb then 0x08 else 0x00)
    ctrl.getLsbD 2 = crc ∧ ctrl.getLsbD 3 = scb ∧ ctrl &&& seqMask = q &&& seqMask ∧ ctrl &&& 0xF0 = 0 := by
  cases crc <;> cases scb <;> simp [seqMask, BitVec.and_or_distrib_right, BitVec.and_assoc]

theorem State.controlByte_fields : (s.controlByte scs).getLsbD 2 = s.useCrc ∧
    (s.controlByte scs).getLsbD 3 = decide (scs ≠ 0) ∧ s.controlByte scs &&& seqMask = s.seq &&& seqMask ∧
    s.controlByte scs &&& 0xF0 = 0 := by
  have h := controlBits_fields s.useCrc (decide (scs ≠ 0)) s.seq
  simp only [decide_eq_true_eq] at h
  exact h

theorem State.controlByte_crc : (s.controlByte scs).getLsbD 2 = s.useCrc := by
  obtain ⟨hcrc, -⟩ := s.controlByte_fields scs
  exact hcrc

theorem State.controlByte_scb : (s.controlByte scs).getLsbD 3 = decide (scs ≠ 0) := by
  obtain ⟨-, hscb, -⟩ := s.controlByte_fields scs
  exact hscb

/-- The fields of the frame that BUILD composes. -/
def State.builtFrame : WireFrame where
  addr := s.addr
  ctrl := s.controlByte scs
  code := s.code
  scblen := if scs = 0 then 0 else scblen
  scs := scs
  scbdata := if scs ≠ 0 ∧ scblen = 3 then s.scbdata else 0
  data := s.wireData scs
  mac := s.frameMac4 scs scblen

theorem State.scb_builtFrame : (s.builtFrame scs scblen).scb = s.securityBlock scs scblen := by
  have hflag : (s.builtFrame scs scblen).ctrl.getLsbD 3 = decide (scs ≠ 0) := s.controlByte_scb scs
  rw [WireFrame.scb, hflag, State.securityBlock_eq]
  by_cases h0 : scs = 0
  · simp only [h0, ne_eq, not_true_eq_false, decide_false, Bool.false_eq_true, if_false, if_true]
  · simp only [State.builtFrame, h0, ne_eq, not_false_eq_true, decide_true, if_true, if_false, true_and, wireScb]
    split <;> rfl

end

section
variable {s : State} {scs scblen : Byte} (hscb : scs = 0 ∨ scbLenValid scblen = true)
include hscb

/-- 30_encoding.md R95: the length that BUILD writes into the frame is the sum of its parts' lengths. -/
theorem State.frameLen_eq : s.frameLen scs scblen =
    6 + (s.securityBlock scs scblen).length + (s.wireData scs).length + macLen scs + fcsLen s.useCrc := by
  rw [State.length_securityBlock s hscb, State.length_wireData]
  rfl

theorem State.frame_eq_wireFrame : s.frame scs scblen = wireFrame s.addr (s.controlByte scs) (s.securityBlock scs scblen)
    s.code (s.wireData scs) (s.frameMac4 scs scblen) := by
  have hlen : s.frameLen scs scblen = wireLength (s.controlByte scs) (s.securityBlock scs scblen) (s.wireData scs)
      (s.frameMac4 scs scblen) := by
    rw [State.frameLen_eq hscb, wireLength, State.controlByte_crc, State.length_frameMac4]
    rfl
  rw [State.frame, State.frameBody_eq, appendFcs_eq, wireFrame, State.controlByte_crc, ← hlen]
  rfl

theorem State.bytes_builtFrame : (s.builtFrame scs scblen).bytes = s.frame scs scblen := by
  rw [WireFrame.bytes, State.scb_builtFrame, State.frame_eq_wireFrame hscb]
  rfl

theorem State.body_builtFrame : (s.builtFrame scs scblen).body = s.frameBody scs scblen := by
  have hlen : (s.builtFrame scs scblen).len = s.frameLen scs scblen := by
    rw [← WireFrame.length_bytes, State.bytes_builtFrame hscb, State.length_frame s hscb]
  rw [WireFrame.body, hlen, State.scb_builtFrame, State.frameBody_eq]
  rfl

/-- 46_framer.md R242: the largest frame has 1024 bytes of data padded to 1040. -/
theorem State.frameLen_le (hfit : s.dlen.toNat ≤ 1024) : s.frameLen scs scblen ≤ 1055 := by
  have hwire : s.wireLen scs ≤ 1040 := by
    unfold State.wireLen paddedLen
    split <;> omega
  have hblock : (if scs ≠ 0x00 then scblen.toNat else 0) ≤ 3 := by
    split
    · next h0 =>
      obtain rfl | rfl := scbLenValid_iff.1 (hscb.resolve_left h0)
      all_goals decide
    · exact Nat.zero_le _
  have hmac : macLen scs ≤ 4 := by
    unfold macLen
    split <;> decide
  have hfcs : fcsLen s.useCrc ≤ 2 := by cases s.useCrc <;> decide
  rw [State.frameLen]
  omega

end

/-! ### What BUILD answers -/

/-- The frame of FLEN and of the bytes of FBUF written together. -/
theorem unchanged_withFlen {stored : Nat → Prop} {s : State} (n : Half) {m : Memory}
    (hm : ∀ a, ¬ stored a → m.read s.life a = s.byte a) : Unchanged [.flen] [] stored s { s with flen := n, mem := m } := by
  refine ⟨fun r hr i => ?_, fun f _ => ?_, hm, .refl s⟩
  · cases r
    case flen => simp at hr
    all_goals rfl
  · cases f <;> rfl

section
variable (s : State) (scs scblen : Byte)

theorem accumulator_withFrame (d : Dir) : (s.withFrame scs scblen).accumulator d =
    if scsHasMac scs = true ∧ scsDir scs = d then s.frameMac scs scblen else s.accumulator d := by
  rw [← accumulator_withMac]
  cases d <;> rfl

theorem fbuf_withFrame : (s.withFrame scs scblen).fbuf 0 (s.frame scs scblen).length = s.frame scs scblen :=
  State.fbuf_writeFbuf (s.withMac scs (s.frameMac scs scblen)) 0 (s.frame scs scblen)

theorem err_withFrame : (s.withFrame scs scblen).err = s.err := by
  obtain ⟨-, -, -, hstatus, -⟩ := s.withFrame_keeps scs scblen
  rw [State.err, hstatus, State.err]

/-- 46_framer.md R240: BUILD's writes. -/
theorem unchanged_withFrame : Unchanged ([Reg.flen] ++ macRegs scs) [] (fbufSpan (s.frame scs scblen).length) s
    (s.withFrame scs scblen) := by
  refine (unchanged_withMac s scs (s.frameMac scs scblen)).andThen (unchanged_withFlen _ fun a ha => ?_)
  refine Memory.read_writeBytes_outside _ _ a _ ?_
  rw [fbufSpan] at ha
  omega

end

section
variable {s : State} {scs scblen : Byte}

/-- R240: BADSCS is for a type other than 0x00 that is invalid or has an unsupported security block length. -/
theorem not_badscs_iff : ¬ (scs ≠ 0x00 ∧ (scsValid scs = false ∨ scbLenValid scblen = false)) ↔
    scs = 0x00 ∨ scsValid scs = true ∧ scbLenValid scblen = true := by
  simp only [not_and_or, not_or, not_not, Bool.not_eq_false]

/-- 46_framer.md R240: the checks of `build_frame`, of which TOOLONG cannot fail (R242). -/
theorem buildError_of_dataInRange (hfit : s.dlen.toNat ≤ 1024) : s.buildError scs scblen =
    if scs ≠ 0x00 ∧ (scsValid scs = false ∨ scbLenValid scblen = false) then some .badscs
    else if scsHasMac scs = true ∧ s.established = false then some .notest
    else none := by
  rw [State.buildError, dataOutOfRange_eq_false hfit, if_neg Bool.false_ne_true]
  split
  · rfl
  · next hscs =>
    have hlen := State.frameLen_le ((not_badscs_iff.1 hscs).imp_right And.right) hfit
    have hfbuf : ¬ s.frameLen scs scblen > Config.fbufSize := by
      simp only [Config.fbufSize]
      omega
    rw [if_neg hfbuf]

theorem toNat_flen_withFrame (hlen : s.frameLen scs scblen ≤ 2048) :
    (s.withFrame scs scblen).flen.toNat = s.frameLen scs scblen := by
  rw [State.withFrame, BitVec.toNat_ofNat]
  exact Nat.mod_eq_of_lt (by omega)

theorem exec_build_of_error {e : ErrCode} (h : s.buildError s.scs s.scblen = some e) :
    ∃ t, exec .build s = .next t ∧ FailsCleanly e s t := by
  rw [exec, execBuild, h]
  exact ⟨_, rfl, failsCleanly_raise e s⟩

/-- R240, R242: what BUILD leaves when its checks pass. -/
theorem exec_build_of_none (h : s.buildError s.scs s.scblen = none) :
    ∃ t, exec .build s = .next t ∧ t.fbuf 0 (s.frameLen s.scs s.scblen) = s.frame s.scs s.scblen ∧
      t.flen.toNat = s.frameLen s.scs s.scblen ∧
      (scsHasMac s.scs = true → t.accumulator (scsDir s.scs) = s.frameMac s.scs s.scblen) ∧ Succeeds s t ∧
      Unchanged ([Reg.flen] ++ macRegs s.scs) [] (fbufSpan (s.frameLen s.scs s.scblen)) s t := by
  obtain ⟨-, hscs, -, hle⟩ := buildError_none h
  have hlen := s.length_frame (hscs.imp_right And.right)
  rw [exec, execBuild, h, ← hlen]
  refine ⟨_, rfl, ?_, ?_, fun hm => ?_, succeeds_complete s _ (err_withFrame s _ _),
    (unchanged_withFrame s _ _).complete _⟩
  · rw [State.complete_fbuf, fbuf_withFrame]
  · rw [State.complete_flen, toNat_flen_withFrame hle, hlen]
  · rw [accumulator_complete, accumulator_withFrame, if_pos ⟨hm, rfl⟩]

end

/-- Settles O43: the checks that pass leave the frame, which is R88's, as long as the sum of its parts. -/
theorem buildComposesTheFrame : Obligations.BuildComposesTheFrame := by
  intro s
  refine ⟨fun hout => ?_, fun hfit h0 hbad => ?_, fun hfit hm hl hest => ?_, fun hfit hscs hest => ?_⟩
  · exact exec_build_of_error (if_pos ((dataOutOfRange_iff s).2 hout))
  · refine exec_build_of_error ((buildError_of_dataInRange hfit).trans (if_pos ⟨h0, hbad.imp_right fun hl => ?_⟩))
    rw [← Bool.not_eq_true, scbLenValid_iff]
    tauto
  · refine exec_build_of_error ((buildError_of_dataInRange hfit).trans ?_)
    rw [if_neg (not_badscs_iff.2 (.inr ⟨scsValid_of_hasMac hm, scbLenValid_iff.2 hl⟩)), if_pos ⟨hm, hest⟩]
  · rw [← scbLenValid_iff] at hscs
    have hscb := hscs.imp_right And.right
    have hnone : s.buildError s.scs s.scblen = none := by
      rw [buildError_of_dataInRange hfit, if_neg (not_badscs_iff.2 hscs), if_neg]
      rintro ⟨hm, hno⟩
      exact absurd ((hest hm).symm.trans hno) (by decide)
    intro d crc ctrl scb data len mac mac4
    have hctrl : s.controlByte s.scs = ctrl := by
      simp only [State.controlByte, ne_eq, ite_not]
      rfl
    have hdata : s.wireData s.scs = data := by
      simp only [State.wireData, cipherIv_eq_map]
      rfl
    have hlen : s.frameLen s.scs s.scblen = len := by
      rw [State.frameLen_eq hscb, hdata]
      rfl
    have hmac : s.frameMac s.scs s.scblen = mac := by
      rw [State.frameMac, State.dirMac, chainIv_eq_accumulator_other, State.frameBody_eq, hlen, hctrl, hdata]
      rfl
    have hframe : s.frame s.scs s.scblen = wireFrame s.addr ctrl scb s.code data mac4 := by
      rw [State.frame_eq_wireFrame hscb, hctrl, hdata, State.frameMac4, hmac]
      rfl
    obtain ⟨t, ht, hfbuf, hflen, hacc, hsucceeds, hunchanged⟩ := exec_build_of_none hnone
    rw [hlen] at hfbuf hflen hunchanged
    exact ⟨t, ht, hfbuf.trans hframe, hflen, hlen.ge.trans (State.frameLen_le hscb hfit),
      fun hm => (hacc hm).trans hmac, hsucceeds, hunchanged⟩

end Sys2Proof.Machine
end

section
/-! The round trip: a frame that BUILD or BUILDA built is well formed, so PARSE gives its fields back (O49). -/

namespace Sys2Proof.Machine

/-! ### Built and parsed again (O49) -/

theorem State.withFrame_scb (s : State) (scs scblen : Byte) :
    (s.withFrame scs scblen).scs = s.scs ∧ (s.withFrame scs scblen).scblen = s.scblen := by
  unfold State.withFrame
  cases scsHasMac scs
  · exact ⟨rfl, rfl⟩
  · cases scsDir scs <;> exact ⟨rfl, rfl⟩

/-- 46_framer.md R242, R243: a BUILD or BUILDA that succeeds stores the frame of some type and security block length, which it
leaves in SCS and SCBLEN. -/
theorem exec_build_builda_cases {i : Instr} (hi : i ∈ [Instr.build, Instr.builda]) {s t : State} (h : exec i s = .next t)
    (hok : t.errcode = 0x00) : ∃ scs scblen, s.buildError scs scblen = none ∧
      t = State.complete { s.withFrame scs scblen with scs := scs, scblen := scblen } 0x00 := by
  have hno {e : ErrCode} : ¬ t = s.complete e.toByte := by
    rintro rfl
    exact e.toByte_ne_zero hok
  obtain rfl | rfl : i = .build ∨ i = .builda := by simpa using hi
  · obtain ⟨e, -, he⟩ | ⟨hnone, ht⟩ := execBuild_cases h
    · exact absurd he hno
    · obtain ⟨hscs, hscblen⟩ := s.withFrame_scb s.scs s.scblen
      have hsame (w : State) (hw : w.scs = s.scs) (hw' : w.scblen = s.scblen) :
          w = { w with scs := s.scs, scblen := s.scblen } := by rw [← hw, ← hw']
      exact ⟨s.scs, s.scblen, hnone, ht.trans (congrArg (State.complete · 0x00) (hsame _ hscs hscblen))⟩
  · obtain ⟨e, -, he⟩ | ⟨hnone, ht⟩ := execBuilda_cases h
    · exact absurd he hno
    · exact ⟨_, _, hnone, ht⟩

/-- 46_framer.md R240: FBUF of `t` holds the frame that `s` builds with the type and the security block length that `t` has. -/
structure Built (s t : State) : Prop where
  checks : s.buildError t.scs t.scblen = none
  flen : t.flen.toNat = s.frameLen t.scs t.scblen
  fbuf : t.fbuf 0 (s.frameLen t.scs t.scblen) = s.frame t.scs t.scblen
  accumulator : ∀ d, t.accumulator d =
    if scsHasMac t.scs = true ∧ scsDir t.scs = d then s.frameMac t.scs t.scblen else s.accumulator d

theorem built_of_exec {i : Instr} (hi : i ∈ [Instr.build, Instr.builda]) {s t : State} (h : exec i s = .next t)
    (hok : t.errcode = 0x00) : Built s t := by
  obtain ⟨scs, scblen, hnone, rfl⟩ := exec_build_builda_cases hi h hok
  obtain ⟨-, hscs, -, hle⟩ := buildError_none hnone
  have hflen := toNat_flen_withFrame hle
  have hfbuf := fbuf_withFrame s scs scblen
  have hacc := accumulator_withFrame s scs scblen
  rw [s.length_frame (hscs.imp_right And.right)] at hfbuf
  generalize s.withFrame scs scblen = w at hflen hfbuf hacc
  refine ⟨hnone, hflen, hfbuf, fun d => ?_⟩
  cases d
  exacts [hacc .command, hacc .reply]

section
variable {s : State} {scs scblen : Byte} (hnone : s.buildError scs scblen = none)
include hnone

/-- A built frame is one that PARSE takes fields from, unless its padded data does not fit DBUF. -/
theorem wellFormed_builtFrame (hfits : scsEncrypts scs = true → s.dlen.toNat < 1024) :
    (s.builtFrame scs scblen).WellFormed := by
  obtain ⟨hdlen, hscs, -, -⟩ := buildError_none hnone
  have hflag : (s.builtFrame scs scblen).ctrl.getLsbD 3 = decide (scs ≠ 0) := s.controlByte_scb scs
  have hdata : (s.builtFrame scs scblen).data.length = s.wireLen scs := s.length_wireData scs
  refine ⟨fun h => ?_, fun h => ?_, fun h => ?_, ?_, fun henc => ?_, s.length_frameMac4 scs scblen⟩
  · have h0 : scs ≠ 0 := decide_eq_true_iff.1 (hflag.symm.trans h)
    obtain ⟨hvalid, hl⟩ := hscs.resolve_left h0
    have hscblen : (s.builtFrame scs scblen).scblen = scblen := if_neg h0
    exact ⟨hvalid, by rwa [hscblen, ← scbLenValid_iff]⟩
  · have h0 : scs = 0 := not_not.1 (decide_eq_false_iff_not.1 (hflag.symm.trans h))
    exact ⟨h0, if_pos h0⟩
  · exact if_neg fun ⟨h0, h3⟩ => h ((if_neg h0).trans h3)
  · rw [hdata, State.wireLen]
    split
    · next henc =>
      have := hfits henc.1
      exact (paddedLen_le_iff _).2 (by omega)
    · exact hdlen
  · rw [hdata, State.wireLen]
    split
    · exact paddedLen_mod _
    · next hno =>
      have : ¬ s.dlen.toNat > 0 := fun hpos => hno ⟨henc, hpos⟩
      omega

end

section
variable {a b : State} {scs scblen : Byte} (hEnc : b.sEnc = a.sEnc) (hacc : ∀ d, b.accumulator d = a.accumulator d)
include hacc

theorem macIn_builtFrame (hscb : scs = 0 ∨ scbLenValid scblen = true) (h1 : b.sMac1 = a.sMac1) (h2 : b.sMac2 = a.sMac2) :
    (a.builtFrame scs scblen).macIn b = a.frameMac scs scblen := by
  rw [WireFrame.macIn, State.body_builtFrame hscb, hacc, State.mac, h1, h2, State.frameMac, State.dirMac,
    chainIv_eq_accumulator_other]
  rfl

include hEnc

/-- 45_mac_cbc.md R219: decryption under an equal key and accumulator gives back the padded data. -/
theorem plainData_builtFrame : (a.builtFrame scs scblen).plainData b =
    if scsEncrypts scs = true ∧ 0 < a.dlen.toNat then pad a.data else a.data := by
  have hdata : (a.builtFrame scs scblen).data = a.wireData scs := rfl
  have hlen : 0 < (a.wireData scs).length ↔ 0 < a.dlen.toNat := by
    rw [State.length_wireData, State.wireLen]
    split
    · next h => simp [paddedLen, h.2]
    · rfl
  have hscs : (a.builtFrame scs scblen).scs = scs := rfl
  simp only [WireFrame.plainData, hdata, hlen, hscs, hEnc, hacc, ← cipherIv_eq_map]
  split
  · next h =>
    rw [State.wireData, if_pos h]
    exact cbcDec_cbcEnc _ _ (by rw [length_pad, paddedLen_mod])
  · next h => exact if_neg h

end

theorem accumulator_congr {a b : State} (hc : b.cmac = a.cmac) (hr : b.rmac = a.rmac) (d : Dir) :
    b.accumulator d = a.accumulator d := by
  cases d
  exacts [hc, hr]

/-- Settles O49: the frame in FBUF is well formed and has the MAC that PARSE regenerates from equal keys and accumulators. -/
theorem parsingABuiltFrameGivesItBack : Obligations.ParsingABuiltFrameGivesItBack := by
  intro i hi a b a' hexec hok hfits hEnc h1 h2 hcmac hrmac hest hflen hfbuf
  have hbuilt := built_of_exec hi hexec hok
  obtain ⟨hdlen, hscs, hestab, hle⟩ := buildError_none hbuilt.checks
  have hscb := hscs.imp_right And.right
  have hacc := accumulator_congr hcmac hrmac
  have hf := wellFormed_builtFrame hbuilt.checks hfits
  have hholds : HoldsFrame b (a.builtFrame a'.scs a'.scblen).bytes := by
    rw [State.bytes_builtFrame hscb, HoldsFrame, State.length_frame a hscb, hflen, hbuilt.flen]
    refine ⟨le_rfl, hle, ?_⟩
    rw [← hbuilt.fbuf, ← hbuilt.flen, hfbuf]
  have hmacIn := macIn_builtFrame hacc hscb h1 h2
  obtain ⟨b', hparse, hr, hmatched, hok', -⟩ := WireFrame.exec_parse_accepts hf (WireFrame.in_of_holdsFrame hholds)
    (fun hm => hest.trans (hestab hm)) fun hm => (if_pos hm).trans (by rw [hmacIn])
  have hdata : b'.data = if scsEncrypts a'.scs = true ∧ 0 < a.dlen.toNat then pad a.data else a.data := by
    rw [State.data, hr.dlen, hr.dbuf, plainData_builtFrame hEnc hacc]
  have haccs (d : Dir) : b'.accumulator d = a'.accumulator d := by
    rw [hr.accumulator, hbuilt.accumulator, hmacIn, hacc]
    rfl
  obtain ⟨-, -, hseq, hreserved⟩ := a.controlByte_fields a'.scs
  refine ⟨b', hparse, hok', hmatched, hr.addr, hr.seq.trans hseq, hr.code, hr.scs, fun h0 => ⟨?_, ?_⟩, fun h0 => ⟨?_, ?_⟩,
    ?_, haccs .command, haccs .reply, fun henc => ?_, fun hplain => ?_⟩
  · exact hr.scblen.trans (if_neg h0)
  · exact hr.scbdata.trans (if_congr (and_iff_right h0) rfl rfl)
  · exact hr.scblen.trans (if_pos h0)
  · exact hr.scbdata.trans (if_neg fun h => h.1 h0)
  · rw [hr.rxctrl]
    exact hreserved
  · rw [if_pos henc] at hdata
    have hfit : b'.dlen.toNat ≤ 1024 := hr.dlen.trans_le hf.data
    obtain ⟨u, hunpad, hulen, ⟨huok, -⟩, -⟩ := exec_unpad_marker hfit hdata
    exact ⟨hdata, u, hunpad, huok, BitVec.eq_of_toNat_eq (hulen.trans a.length_data)⟩
  · rw [if_neg hplain] at hdata
    have hlen := congrArg List.length hdata
    rw [State.length_data, State.length_data] at hlen
    exact ⟨BitVec.eq_of_toNat_eq hlen, hdata⟩

end Sys2Proof.Machine
end

section
/-! How an instruction completes, said once for all of them: an error writes the completion alone (O11), and IRQ follows
DONE and IRQ_EN (O14). -/

namespace Sys2Proof.Machine

/-! ### How an instruction completes -/

/-- The state `t` that instruction `i` leaves of `s`: an error of `s` itself, with MATCH 0 when `i` writes MATCH; PARSE's
MACMISMATCH, which keeps what PARSE wrote (60_exceptions.md R282); a soft reset; or a success that leaves CTRL alone. -/
inductive CompletesAs (i : Instr) (s t : State) : Prop where
  | error (e : ErrCode) (hi : matchWriter i = false) (ht : t = s.complete e.toByte)
  | matchError (e : ErrCode) (hi : matchWriter i = true) (ht : t = (s.setMatched false).complete e.toByte)
  | macMismatch (y : Layout) (hi : i = .parse) (hy : s.parseLayout = .ok y) (hbad : s.macGood y = false)
      (ht : t = ((s.withParsed y).setMatched false).complete ErrCode.macmismatch.toByte)
  | softReset (hi : i = .sreset) (ht : t = s.softReset.complete 0x00)
  | success (u : State) (hi : i ≠ .sreset) (ht : t = u.complete 0x00) (hctrl : u.ctrl = s.ctrl)

section
variable {i : Instr} {s t : State}

theorem CompletesAs.of_macSpan {d : Dir} (hi : matchWriter i = false) (hr : i ≠ .sreset) (h : macSpan d s = .next t) :
    CompletesAs i s t := by
  obtain ⟨-, ht⟩ | ⟨-, -, ht⟩ | ⟨-, -, ht⟩ := macSpan_cases h
  · exact .error _ hi ht
  · exact .error _ hi ht
  · obtain ⟨-, hctrl, -⟩ := s.setAccumulator_keeps d (s.dirMac d s.span)
    exact .success _ hr ht hctrl

theorem CompletesAs.of_cipherData {f : Bytes → Bytes} (hi : matchWriter i = false) (hr : i ≠ .sreset)
    (h : cipherData f s = .next t) : CompletesAs i s t := by
  obtain ⟨e, ht, -⟩ | ⟨-, -, -, ht⟩ | ⟨-, -, -, -, ht⟩ := cipherData_cases h
  exacts [.error e hi ht, .success _ hr ht rfl, .success _ hr ht rfl]

theorem exec_completesAs (h : exec i s = .next t) : CompletesAs i s t := by
  cases i
  case sreset => exact .softReset rfl (finish_eq_next.1 h)
  case nop | aeseKey | aeseEnc | aeseMac1 | aeseMac2 | aesdKey | aesdEnc | aesdMac1 | aesdMac2 | screset | derive | crypt |
      adoptrmac => exact .success _ nofun (finish_eq_next.1 h) rfl
  case crc16 =>
    obtain ⟨-, ht⟩ | ⟨-, ht⟩ := execCrc16_cases h
    exacts [.error _ rfl ht, .success _ nofun ht rfl]
  case cksum8 =>
    obtain ⟨-, ht⟩ | ⟨-, ht⟩ := execCksum8_cases h
    exacts [.error _ rfl ht, .success _ nofun ht rfl]
  case vcrc16 =>
    obtain ⟨e, ht, -⟩ | ⟨-, -, c, -, -, -, ht⟩ := execVcrc16_cases h
    exacts [.matchError e rfl ht, .success _ nofun ht rfl]
  case vcksum8 =>
    obtain ⟨e, ht, -⟩ | ⟨-, -, c, -, -, ht⟩ := execVcksum8_cases h
    exacts [.matchError e rfl ht, .success _ nofun ht rfl]
  case pad =>
    obtain ⟨-, ht⟩ | ⟨-, ht⟩ := execPad_cases h
    exacts [.error _ rfl ht, .success _ nofun ht rfl]
  case unpad =>
    obtain ⟨-, ht⟩ | ⟨-, -, ht⟩ | ⟨-, n, -, ht⟩ := execUnpad_cases h
    exacts [.error _ rfl ht, .error _ rfl ht, .success _ nofun ht rfl]
  case vccrypt =>
    obtain ⟨-, ht⟩ | ⟨-, ht⟩ := execVccrypt_cases h
    exacts [.matchError _ rfl ht, .success _ nofun ht rfl]
  case vscrypt =>
    obtain ⟨-, ht⟩ | ⟨-, ht⟩ := execVscrypt_cases h
    exacts [.matchError _ rfl ht, .success _ nofun ht rfl]
  case macc | macr => exact .of_macSpan rfl nofun h
  case encc | encr | decc | decr => exact .of_cipherData rfl nofun h
  case build =>
    obtain ⟨-, hctrl, -⟩ := s.withFrame_keeps s.scs s.scblen
    obtain ⟨e, -, ht⟩ | ⟨-, ht⟩ := execBuild_cases h
    exacts [.error e rfl ht, .success _ nofun ht hctrl]
  case builda =>
    obtain ⟨-, hctrl, -⟩ := s.withFrame_keeps s.autoScs s.autoScblen
    obtain ⟨e, -, ht⟩ | ⟨-, ht⟩ := execBuilda_cases h
    exacts [.error e rfl ht, .success _ nofun ht hctrl]
  case parse =>
    obtain ⟨e, -, ht⟩ | ⟨y, hy, hbad, ht⟩ | ⟨y, -, -, ht⟩ := execParse_cases h
    · exact .matchError e rfl ht
    · exact .macMismatch y rfl hy hbad ht
    · obtain ⟨-, hctrl, -⟩ := s.withParsed_keeps y
      exact .success _ nofun ht hctrl

end

/-! ### Errors (O11) -/

/-- A frame that allows more changes. -/
theorem Unchanged.mono {regs regs' : List Reg} {flags flags' : List Flag} {stored stored' : Nat → Prop} {s t : State}
    (h : Unchanged regs flags stored s t) (hregs : regs ⊆ regs') (hflags : flags ⊆ flags')
    (hstored : ∀ a, stored a → stored' a) : Unchanged regs' flags' stored' s t := by
  obtain ⟨hr, hf, hb, hhidden⟩ := h
  refine ⟨fun r hn => hr r ?_, fun f hn => hf f ?_, fun a hn => hb a (mt (hstored a) hn), hhidden⟩
  · exact mt (List.cons_subset_cons _ (List.cons_subset_cons _ hregs) ·) hn
  · exact mt (List.cons_subset_cons _ (List.cons_subset_cons _ (List.cons_subset_cons _ hflags)) ·) hn

/-- 46_framer.md R250: only a frame that carries a MAC can have a wrong one. -/
theorem scsHasMac_of_macGood_eq_false {s : State} {y : Layout} (h : s.macGood y = false) : scsHasMac y.scs = true := by
  rw [State.macGood, Bool.or_eq_false_iff, Bool.not_eq_false'] at h
  exact h.1

theorem toNat_dlen_withParsed {s : State} {y : Layout} (hy : s.parseLayout = .ok y) :
    (s.withParsed y).dlen.toNat = y.de - y.ds := by
  have hle := parseLayout_data_le hy
  rw [State.withParsed, BitVec.toNat_ofNat]
  exact Nat.mod_eq_of_lt (by omega)

/-- R250, 60_exceptions.md R282: what a frame with a wrong MAC changes. -/
theorem unchanged_macMismatch {s : State} {y : Layout} (hy : s.parseLayout = .ok y) (hbad : s.macGood y = false) :
    Unchanged [.addr, .seq, .rxctrl, .scblen, .scs, .scbdata, .code, .dlen, accumulatorReg (scsDir y.scs)] [.matched]
      (dbufSpan (s.withParsed y).dlen.toNat) s
      (((s.withParsed y).setMatched false).complete ErrCode.macmismatch.toByte) := by
  have hwritten := ((unchanged_withParsed s y [.matched]).setStatusBit .matched false (by simp)).complete
    ErrCode.macmismatch.toByte
  refine hwritten.mono ?_ (List.Subset.refl _) fun a ha => ?_
  · rw [macRegs, if_pos (scsHasMac_of_macGood_eq_false hbad)]
    intro r hr
    simp only [headerRegs, List.mem_append, List.mem_cons] at hr ⊢
    tauto
  · have hlen := s.length_rxData_le y
    rw [toNat_dlen_withParsed hy]
    unfold dbufSpan at ha ⊢
    omega

/-- Settles O11: an error ends as the completion of the state as it was, but for PARSE's MACMISMATCH. -/
theorem errorsHaveNoPartialEffect : Obligations.ErrorsHaveNoPartialEffect := by
  intro i s t h hne
  obtain ⟨e, hi, rfl⟩ | ⟨e, hi, rfl⟩ | ⟨y, rfl, hy, hbad, rfl⟩ | ⟨-, rfl⟩ | ⟨u, -, rfl, -⟩ := exec_completesAs h
  · obtain ⟨⟨-, hbusy, hdone, herr⟩, hkept⟩ := failsCleanly_raise e s
    refine ⟨herr, hbusy, hdone, by simp [hi], fun _ => by simpa [hi] using hkept, ?_⟩
    rintro ⟨rfl, -⟩
    cases hi
  · obtain ⟨⟨-, hbusy, hdone, herr⟩, hmatched, hkept⟩ := failsUnmatched_raise e s
    exact ⟨herr, hbusy, hdone, fun _ => hmatched, fun _ => by simpa [hi] using hkept,
      fun _ => hkept.mono (List.nil_subset _) (List.Subset.refl _) fun _ => False.elim⟩
  · obtain ⟨-, hbusy, hdone, herr⟩ := fails_complete .macmismatch ((s.withParsed y).setMatched false)
    exact ⟨herr, hbusy, hdone, fun _ => by simp, fun hno => absurd ⟨rfl, rfl⟩ hno,
      fun _ => unchanged_macMismatch hy hbad⟩
  · exact absurd rfl hne
  · exact absurd rfl hne

/-! ### IRQ (O14) -/

/-- 40_control.md R111: every completion sets DONE. -/
theorem exec_done {i : Instr} {s t : State} (h : exec i s = .next t) : t.done = true := by
  obtain ⟨u, c, hu, -⟩ := (exec_ends i s).next
  cases hu.symm.trans h
  exact u.done_complete c

/-- 10_state.md R24: of the instructions, only SRESET writes CTRL. -/
theorem exec_ctrl {i : Instr} {s t : State} (h : exec i s = .next t) (hi : i ≠ .sreset) : t.ctrl = s.ctrl := by
  obtain ⟨e, -, rfl⟩ | ⟨e, -, rfl⟩ | ⟨y, -, -, -, rfl⟩ | ⟨hr, -⟩ | ⟨u, -, rfl, hctrl⟩ := exec_completesAs h
  · rfl
  · rfl
  · obtain ⟨-, hctrl, -⟩ := s.withParsed_keeps y
    exact hctrl
  · exact absurd hr hi
  · exact hctrl

/-- 60_exceptions.md R285: an acknowledgement moves IRQ only by clearing DONE. -/
theorem irq_acknowledge (s : State) (v : Byte) : (s.acknowledge v).irq = (s.irq && !v.getLsbD 1) := by
  have hirqEn : (s.acknowledge v).irqEn = s.irqEn := rfl
  rw [State.irq, done_acknowledge, hirqEn, State.irq, Bool.and_right_comm]

/-- R285: a write to CTRL enables or masks the IRQ of the DONE that stands. -/
theorem irq_setRegByte_ctrl (s : State) (v : Byte) : (s.setRegByte .ctrl 0 v).irq = (s.done && v.getLsbD 2) := by
  have hdone : (s.setRegByte .ctrl 0 v).done = s.done := rfl
  have hirqEn : (s.setRegByte .ctrl 0 v).irqEn = (v &&& ctrlMask).getLsbD 2 := rfl
  rw [State.irq, hdone, hirqEn, BitVec.getLsbD_and]
  simp [ctrlMask]

/-- Settles O14: a completion sets DONE and writes CTRL only in SRESET; the host's accepted writes to OPC, STATUS and CTRL are
an issue, an acknowledgement and a register write. -/
theorem irqFollowsDoneAndItsEnable : Obligations.IrqFollowsDoneAndItsEnable := by
  refine ⟨fun i s t h => ?_, fun s v hb => ?_, fun s v hv => ?_, fun s v hv => ?_, fun s v hb => ?_⟩
  · split
    · next hi =>
      subst hi
      rw [finish_eq_next.1 h]
      exact irq_complete_softReset s
    · next hi => rw [State.irq, exec_done h, Bool.true_and, State.irqEn, exec_ctrl h hi, State.irqEn]
  · rw [hostWrite_opc_of_idle hb, irq_issue]
  · rw [hostWrite_status, irq_acknowledge, hv, Bool.not_true, Bool.and_false]
  · rw [hostWrite_status, irq_acknowledge, hv, Bool.not_false, Bool.and_true]
  · rw [hostWrite_reg (r := .ctrl) (i := 0) v hb (.inl rfl) rfl, irq_setRegByte_ctrl]

end Sys2Proof.Machine
end

section
/-! PARSE reports the first of its checks that fails (O47): each of its three stages answers by a list of checks of its own,
and a list of checks after another is the two in a row. -/

namespace Sys2Proof.Machine

/-! ### Lists of checks -/

theorem firstError_append (xs ys : List (Bool × ErrCode)) :
    firstError (xs ++ ys) = (firstError xs).or (firstError ys) := by
  induction xs with
  | nil => rfl
  | cons x xs ih =>
    obtain ⟨c, e⟩ := x
    cases c
    · exact ih
    · rfl

theorem firstError_eq_none {xs : List (Bool × ErrCode)} : firstError xs = none ↔ ∀ x ∈ xs, x.1 = false := by
  induction xs with
  | nil => simp [firstError]
  | cons x xs ih =>
    obtain ⟨c, e⟩ := x
    cases c <;> simp [firstError, ih]

/-- The answer of a stage that makes the checks `xs` and passes `a` on. -/
def checked {α : Type} (xs : List (Bool × ErrCode)) (a : α) : Except ErrCode α :=
  match firstError xs with
  | some e => .error e
  | none => .ok a

section
variable {α β : Type} {xs ys : List (Bool × ErrCode)}

theorem checked_nil (a : α) : checked [] a = .ok a := rfl

theorem checked_cons (c : Bool) (e : ErrCode) (a : α) :
    checked ((c, e) :: xs) a = if c then .error e else checked xs a := by cases c <;> rfl

theorem checked_of_firstError {e : ErrCode} (h : firstError xs = some e) (a : α) : checked xs a = .error e := by
  rw [checked, h]

/-- The stage that follows is made only when every check before it has passed. -/
theorem checked_bind {a : α} {b : β} {f : α → Except ErrCode β} (hf : firstError xs = none → f a = checked ys b) :
    (checked xs a).bind f = checked (xs ++ ys) b := by
  simp only [checked, firstError_append] at hf ⊢
  cases hxs : firstError xs with
  | some e => rfl
  | none => exact hf hxs

end

/-- Two chains of checks that begin with the same one need agree only where it passes. -/
theorem ite_congr_else {α : Type} {p q : Prop} [Decidable p] [Decidable q] {a x y : α} (h : ¬ q → x = y)
    (hpq : p = q := by rfl) : (if p then a else x) = if q then a else y := ite_congr hpq (fun _ => rfl) h

/-! ### The checks of PARSE -/

section
variable (s : State)

/-- 46_framer.md R250: the checks of the header. -/
def State.headerChecks : List (Bool × ErrCode) :=
  let n := s.flen.toNat
  let b := s.fbufByte
  let l := (b 2).toNat + 256 * (b 3).toNat
  let crc := (b 4).getLsbD 2
  let c := if crc then 2 else 1
  [(n > 2048, .range), (n < 1, .length), (b 0 ≠ 0x53, .badsom), (n < 5, .length), (n < l, .length),
    (l < 6 + c + (if (b 4).getLsbD 3 then 2 else 0), .length),
    (s.fbuf (l - c) c ≠ wireFcs crc (s.fbuf 0 (l - c)), .checksum)]

/-- R250: the length of the security block, 0 without one. -/
def State.rxScblen : Byte := if (s.fbufByte 4).getLsbD 3 then s.fbufByte 5 else 0

/-- R250: the type of the security block, 0 without one. -/
def State.rxScs : Byte := if (s.fbufByte 4).getLsbD 3 then s.fbufByte 6 else 0

/-- R250: the checks of the security block of a frame of length `l`. -/
def State.scbChecks (l : Nat) : List (Bool × ErrCode) :=
  let c := if (s.fbufByte 4).getLsbD 2 then 2 else 1
  [((s.fbufByte 4).getLsbD 3 ∧ (scsValid s.rxScs = false ∨ (s.rxScblen ≠ 2 ∧ s.rxScblen ≠ 3)), .badscs),
    (6 + s.rxScblen.toNat + c > l, .length)]

/-- R250: the checks after the security block's. -/
def State.bodyChecks (l : Nat) : List (Bool × ErrCode) :=
  let c := if (s.fbufByte 4).getLsbD 2 then 2 else 1
  let m := if scsHasMac s.rxScs then 4 else 0
  let dl := l - (6 + s.rxScblen.toNat + m + c)
  [(6 + s.rxScblen.toNat + m + c > l, .length), (scsHasMac s.rxScs ∧ s.established = false, .notest),
    (dl > 1024, .range), (scsEncrypts s.rxScs ∧ dl % 16 ≠ 0, .notaligned)]

/-- R250: the security block as received. -/
def State.rxScb : Byte × Byte × Byte := (s.rxScblen, s.rxScs, if s.rxScblen = 3 then s.fbufByte 7 else 0x00)

/-- R250: the layout of a frame of length `l` that passes the checks. -/
def State.rxLayout (l : Nat) : Layout :=
  let (scblen, scs, scbdata) := s.rxScb
  ⟨s.fbufByte 4, scblen, scs, scbdata, 6 + scblen.toNat, l - fcsLen (ctrlCrc (s.fbufByte 4)) - macLen scs⟩

end

section
variable {s : State} {l : Nat}

/-- The least frame has room for the header and the FCS. -/
theorem le_minFrameLen (ctrl : Byte) : 6 + fcsLen (ctrlCrc ctrl) ≤ minFrameLen ctrl := Nat.le_add_right _ _

theorem fcsOk_eq_false_iff {crc : Bool} (hl : fcsLen crc ≤ l) : s.fcsOk crc l = false ↔
    s.fbuf (l - fcsLen crc) (fcsLen crc) ≠ wireFcs crc (s.fbuf 0 (l - fcsLen crc)) := by
  rw [← Bool.not_eq_true, fcsOk_iff hl]

/-- The FCS is checked after the least length, so it lies in the frame. -/
theorem parseHeader_eq_checked : s.parseHeader = checked s.headerChecks s.declaredLen := by
  simp only [State.parseHeader, State.headerChecks, checked_cons, checked_nil, decide_eq_true_eq,
    ← State.toNat_declaredLen]
  refine ite_congr_else fun _ => ite_congr_else fun _ => ite_congr_else fun _ => ite_congr_else fun _ =>
    ite_congr_else fun _ => ite_congr_else fun hmin => ite_congr_else (fun _ => rfl) (propext (fcsOk_eq_false_iff ?_))
  have hroom := (le_minFrameLen _).trans (not_lt.1 hmin)
  omega

theorem minFrameLen_le_of_headerChecks (h : firstError s.headerChecks = none) :
    minFrameLen (s.fbufByte 4) ≤ s.declaredLen := by
  simp only [State.headerChecks, firstError_eq_none, List.forall_mem_cons, decide_eq_false_iff_not] at h
  obtain ⟨-, -, -, -, -, hmin, -⟩ := h
  rw [State.toNat_declaredLen]
  exact not_lt.1 hmin

/-- Without a security block these checks pass, since the least length has room for the FCS. -/
theorem parseScb_eq_checked (hmin : minFrameLen (s.fbufByte 4) ≤ l) :
    s.parseScb (s.fbufByte 4) l = checked (s.scbChecks l) s.rxScb := by
  cases hflag : (s.fbufByte 4).getLsbD 3
  · simp only [State.parseScb, State.scbChecks, State.rxScb, State.rxScblen, State.rxScs, ctrlScb, hflag, checked_cons,
      checked_nil]
    simpa [fcsLen, ctrlCrc] using (le_minFrameLen _).trans hmin
  · have hvalid : (scbLenValid (s.fbufByte 5) = false ∨ scsValid (s.fbufByte 6) = false) =
        (scsValid (s.fbufByte 6) = false ∨ s.fbufByte 5 ≠ 2 ∧ s.fbufByte 5 ≠ 3) := by
      simp [scbLenValid, or_comm]
    simp only [State.parseScb, State.scbChecks, State.rxScb, State.rxScblen, State.rxScs, ctrlScb, hflag, checked_cons,
      checked_nil, hvalid, true_and, if_true, decide_eq_true_eq]
    rfl

theorem parseBody_eq_checked : s.parseBody (s.fbufByte 4) l s.rxScb = checked (s.bodyChecks l) (s.rxLayout l) := by
  have hdata (c m d : Nat) : l - c - m - d = l - (d + m + c) := by omega
  simp only [State.parseBody, State.bodyChecks, State.rxScb, checked_cons, checked_nil, decide_eq_true_eq, hdata]
  rfl

theorem parseLayout_eq_bind :
    s.parseLayout = s.parseHeader.bind fun l => (s.parseScb (s.fbufByte 4) l).bind (s.parseBody (s.fbufByte 4) l) := by
  rw [State.parseLayout]
  cases s.parseHeader with
  | error e => rfl
  | ok l => cases hscb : s.parseScb (s.fbufByte 4) l <;> simp only [hscb, Except.bind]

/-- R250: every check of PARSE but the MAC's, in order. -/
theorem parseLayout_eq_checked : s.parseLayout =
    checked (s.headerChecks ++ (s.scbChecks s.declaredLen ++ s.bodyChecks s.declaredLen)) (s.rxLayout s.declaredLen) := by
  rw [parseLayout_eq_bind, parseHeader_eq_checked]
  refine checked_bind fun hheader => ?_
  rw [parseScb_eq_checked (minFrameLen_le_of_headerChecks hheader)]
  exact checked_bind fun _ => parseBody_eq_checked

end

/-- Settles O47: the thirteen checks are those of the three stages in a row. -/
theorem parseReportsTheFirstFailingCheck : Obligations.ParseReportsTheFirstFailingCheck := by
  intro s e n b l crc c hasscb scblen scs m dl h
  refine exec_parse_failsUnmatched (parseLayout_eq_checked.trans (checked_of_firstError ?_ _))
  rw [State.toNat_declaredLen]
  exact h

end Sys2Proof.Machine
end

section
/-! Power-on reset (O5, O57), and what a step is: the completion of the instruction in flight, or a turn of the host (O7, O8,
O10, O53, O59). -/

namespace Sys2Proof.Machine

/-! ### Power-on -/

theorem Quad.get_zero (i : Nat) : Quad.zero.get i = 0 := by
  rcases i with _ | _ | _ | _ | i <;> rfl

theorem Rnd.get_zero (i : Nat) : Rnd.zero.get i = 0 := by
  rw [Rnd.get]
  split
  · exact Quad.get_zero _
  · exact Quad.get_zero _
  · rfl

theorem Block.get_zero (i : Nat) : Block.zero.get i = 0 := by
  rw [Block.get]
  split
  · exact Quad.get_zero _
  · exact Quad.get_zero _
  · exact Quad.get_zero _
  · exact Quad.get_zero _
  · rfl

theorem oneByte_zero (i : Nat) : oneByte 0 i = 0 := by cases i <;> rfl

theorem halfByte_zero (i : Nat) : halfByte 0 i = 0 := by
  rcases i with _ | _ | i <;> rfl

/-- 10_state.md R22, the reset column. -/
theorem regByte_powerOn (n : Nat) (r : Reg) (i : Nat) :
    (State.powerOn n).regByte r i =
      if r = .ctrl ∧ i = 0 then 0x01 else if r = .scblen ∧ i = 0 then 0x02 else 0x00 := by
  cases r
  case ctrl | scblen => cases i <;> simp [State.powerOn, State.regByte, oneByte, ctrlMask]
  case opc | errcode | addr | code | scs | scbdata | rxctrl => exact oneByte_zero i
  case status => exact (congrArg (oneByte · i) BitVec.zero_and).trans (oneByte_zero i)
  case seq => exact (congrArg (oneByte · i) BitVec.zero_and).trans (oneByte_zero i)
  case dlen | flen | opoff | oplen | fcs => exact halfByte_zero i
  case rndA | rndB => exact Rnd.get_zero i
  all_goals exact Block.get_zero i

/-- R310: STATUS is 0x00. -/
theorem flag_powerOn (n : Nat) (f : Flag) : (State.powerOn n).flag f = false := by
  rw [State.flag_eq]
  exact BitVec.getLsbD_zero

theorem busy_powerOn (n : Nat) : (State.powerOn n).busy = false := flag_powerOn n .busy

theorem done_powerOn (n : Nat) : (State.powerOn n).done = false := flag_powerOn n .done

theorem irq_powerOn (n : Nat) : (State.powerOn n).irq = false := by rw [State.irq, done_powerOn, Bool.false_and]

/-- 70_reset_and_hazards.md R311: nothing is listed after a power-on, so every buffer byte is BUF_INIT. -/
theorem hostRead_buffer_powerOn (n : Nat) {a : Nat} (h : 0x400 ≤ a) :
    (State.powerOn n).hostRead a = Config.bufInit n a := by
  rw [hostRead_of_idle (busy_powerOn n), State.idleRead, locate_buffer a h]
  rfl

/-- Settles O5: the registers' bytes one register at a time; the block is idle, so it takes a write to OPC as an issue. -/
theorem powerOnResetValues : Obligations.PowerOnResetValues := by
  refine ⟨rfl, ?_⟩
  rintro n _ rfl
  refine ⟨regByte_powerOn n, rfl, rfl, rfl, (by decide : State.reset.useCrc = true),
    (by decide : State.reset.responder = false), (by decide : State.reset.irqEn = false), busy_powerOn n,
    done_powerOn n, flag_powerOn n .established, irq_powerOn n, fun v => ?_, fun a ha _ => hostRead_buffer_powerOn n ha⟩
  rw [hostWrite_opc_of_idle (busy_powerOn n)]
  exact ⟨rfl, busy_issue _ v⟩

/-- 70_reset_and_hazards.md R310: the invariant starts with no byte listed and no bit set but USE_CRC. -/
theorem State.Inv.powerOn (n : Nat) : (State.powerOn n).Inv where
  memory := rfl
  ctrlReserved := (by decide : State.reset.ctrl &&& ~~~ctrlMask = 0)
  seqReserved := BitVec.zero_and
  statusReserved := BitVec.zero_and
  errcode := (by decide : State.reset.errcode ≤ 0x0C)
  busyNotDone := by simp [busy_powerOn]
  idleWait _ := rfl

/-- Settles O57: the reset state is a power-on. -/
theorem resetStateMeetsTheInvariant : Obligations.ResetStateMeetsTheInvariant := ⟨.powerOn 0, .powerOn⟩

/-! ### Completions -/

section
variable {s : State}

theorem completionDue_iff : s.completionDue = true ↔ s.busy = true ∧ s.wait = 0 := by
  rw [State.completionDue, Bool.and_eq_true, beq_iff_eq]

theorem completionDue_of_waiting (hw : s.wait ≠ 0) : s.completionDue = false := by
  rw [← Bool.not_eq_true, completionDue_iff]
  exact fun ⟨_, hz⟩ => hw hz

theorem tick_of_busy (hb : s.busy = true) : s.tick = { s with wait := s.wait - 1 } := by
  rw [State.tick, if_pos hb]

theorem engineStep_of_decode {i : Instr} {rest : Bytes} (h : decode s.inFlight = .ok (i, rest)) :
    engineStep s = exec i s := by
  simp only [engineStep, completeBytes, h]

theorem engineStep_of_undefined (h : opcodeWellFormed s.opc = false) : engineStep s = raiseError .illegal s := by
  obtain ⟨i, hi, -⟩ | ⟨-, he⟩ := engineStep_cases s
  · rw [← isSome_decodeByte_eq, hi] at h
    cases h
  · exact he

/-- 40_control.md R111: a due instruction, defined or not, completes. -/
theorem step_of_due_completes (h : s.completionDue = true) : ∃ u c, step s = .next (State.complete u c) := by
  rw [step_of_due h]
  obtain ⟨i, -, he⟩ | ⟨-, he⟩ := engineStep_cases s
  · obtain ⟨u, c, hu, -⟩ := (exec_ends i s).next
    exact ⟨u, c, he.trans hu⟩
  · exact ⟨s, _, he⟩

end

/-- Settles O7: the two ways of a step, with the tick of a BUSY and of an idle block. -/
theorem stepRunsTheInstructionInFlight : Obligations.StepRunsTheInstructionInFlight := by
  refine ⟨fun s i hb hw hd => ?_, fun s hb hw => ?_, fun s hb => ?_⟩
  · rw [step_of_due (completionDue_iff.2 ⟨hb, hw⟩), engineStep_of_decode hd]
  · rw [step_of_not_due (completionDue_of_waiting hw), tick_of_busy hb]
  · rw [step_of_not_due (completionDue_of_idle hb), tick_of_idle hb]

/-- Settles O8: a byte of no format's form decodes to nothing, and then the completion is the error ILLEGAL. -/
theorem undefinedOpcodeCompletesWithIllegal : Obligations.UndefinedOpcodeCompletesWithIllegal := by
  intro s hb hw hform
  refine ⟨_, ?_, failsCleanly_raise .illegal s⟩
  rw [step_of_due (completionDue_iff.2 ⟨hb, hw⟩), engineStep_of_undefined hform]
  rfl

/-! ### Where a step stops -/

/-- A turn of the host goes on, or stops with a fault at an access outside the window. -/
theorem hostStep_outcomes (s : State) :
    Safe (hostStep s) ∨ ∃ r a rest, hostStep s = .fault r ∧ s.host = a :: rest ∧ a.wellFormed = false := by
  cases hh : s.host with
  | nil => exact .inl (hostStep_next s (by simp [hh]))
  | cons a rest =>
    cases hw : a.wellFormed with
    | true => exact .inl (hostStep_next s (by simp [hh, hw]))
    | false =>
      refine .inr ?_
      cases a with
      | rd off => exact ⟨.offsetOutsideWindow off, _, rest, by simp [hostStep, hh, hw], rfl, hw⟩
      | wr off v => exact ⟨.offsetOutsideWindow off, _, rest, by simp [hostStep, hh, hw], rfl, hw⟩

theorem step_outcomes (s : State) :
    Safe (step s) ∨ ∃ r a rest, step s = .fault r ∧ s.host = a :: rest ∧ a.wellFormed = false := by
  cases hd : s.completionDue with
  | true =>
    obtain ⟨u, c, h⟩ := step_of_due_completes hd
    exact .inl ⟨_, h⟩
  | false =>
    rw [step_of_not_due hd]
    exact hostStep_outcomes s.tick

/-- Settles O59: of a step's two outcomes neither is a refusal, and the fault comes with its access. -/
theorem stepsStopOnlyAtAccessesOutsideTheWindow : Obligations.StepsStopOnlyAtAccessesOutsideTheWindow := by
  intro s
  obtain ⟨t, ht⟩ | ⟨r, a, rest, hr, hh, hw⟩ := step_outcomes s
  · exact ⟨by simp [ht], by simp [ht], fun _ => ⟨t, ht⟩⟩
  · refine ⟨by simp [hr], fun _ _ => ⟨a, rest, hh, hw⟩, fun hall => ?_⟩
    have ha : a.wellFormed = true := hall a (by simp [hh])
    exact absurd (hw.symm.trans ha) Bool.false_ne_true

/-! ### The host's turn while an instruction waits -/

/-- 20_memory.md R71: a dropped write. -/
theorem hostWrite_of_busy {s : State} {off : Nat} (v : Byte) (hb : s.busy = true) (h2 : off ≠ 0x002) :
    s.hostWrite off v = s.setOvr true := by
  rw [State.hostWrite, if_pos (by simp [hb, h2])]

theorem setOvr_flags (s : State) :
    (s.setOvr true).ovr = true ∧ (s.setOvr true).done = s.done ∧ (s.setOvr true).err = s.err := by simp

/-- What a host write leaves of a BUSY block, at any offset. -/
theorem hostWrite_busy_keeps {s : State} (off : Nat) (v : Byte) (hb : s.busy = true) :
    (s.hostWrite off v).busy = true ∧ (s.hostWrite off v).wait = s.wait ∧ (s.hostWrite off v).host = s.host ∧
    (s.hostWrite off v).errcode = s.errcode := by
  by_cases h2 : off = 0x002
  · subst h2
    rw [hostWrite_status]
    exact ⟨(busy_acknowledge s v).trans hb, rfl, rfl, rfl⟩
  · rw [hostWrite_of_busy v hb h2]
    exact ⟨by simpa using hb, rfl, rfl, rfl⟩

/-- A host write made on a turn of the host, idle or waiting. -/
theorem step_write {s : State} {off : Nat} {v : Byte} {rest : List HostAccess} (hd : s.completionDue = false)
    (hh : s.host = .wr off v :: rest) (ho : off < 0x1000) :
    step s = .next (State.hostWrite { s.tick with host := rest } off v) := by
  have hw : (HostAccess.wr off v).wellFormed = true := by simp [HostAccess.wellFormed, Config.windowSize, ho]
  rw [step_of_not_due hd, hostStep, State.tick_host, hh]
  exact if_pos hw

/-- Settles O53: the wait and the host's list set aside, a dropped write changes OVR and an accepted one is an acknowledgement. -/
theorem writesWhileBusyAreDropped : Obligations.WritesWhileBusyAreDropped := by
  intro s off v rest hb hw ho hh
  have hstep : step s = .next (State.hostWrite { s with wait := s.wait - 1, host := rest } off v) := by
    rw [step_write (completionDue_of_waiting hw) hh ho, tick_of_busy hb]
  obtain ⟨hbusy, hwait, hhost, herr⟩ :=
    hostWrite_busy_keeps (s := { s with wait := s.wait - 1, host := rest }) off v hb
  refine ⟨_, hstep, hhost, hwait, hbusy, herr, fun h2 => ?_, ?_⟩
  · rw [hostWrite_of_busy (s := { s with wait := s.wait - 1, host := rest }) v hb h2]
    have hkept : Unchanged [] [.ovr] noStore s (s.setOvr true) :=
      (Unchanged.refl _ _ _ s).setStatusBit .ovr true (by simp)
    obtain ⟨hovr, hdone, herr⟩ := setOvr_flags s
    exact ⟨hovr, hdone, herr, hkept⟩
  · rintro rfl
    rw [hostWrite_status]
    exact ⟨done_acknowledge _ v, err_acknowledge _ v, ovr_acknowledge _ v, unchanged_acknowledge s v⟩

/-- A turn of the host, inside its window, leaves a BUSY block BUSY and its wait alone. -/
theorem hostStep_of_busy {s : State} (hb : s.busy = true) (hin : ∀ a ∈ s.host, a.wellFormed = true) :
    ∃ t, hostStep s = .next t ∧ t.busy = true ∧ t.wait = s.wait ∧ ∀ a ∈ t.host, a.wellFormed = true := by
  obtain ⟨t, ht⟩ := hostStep_next s fun a rest hh => hin a (by simp [hh])
  refine ⟨t, ht, ?_⟩
  obtain ⟨-, rfl⟩ | ⟨off, rest, hh, -, rfl⟩ | ⟨off, v, rest, hh, -, rfl⟩ := hostStep_cases ht
  · exact ⟨hb, rfl, hin⟩
  · exact ⟨hb, rfl, fun a ha => hin a (by simpa [hh] using .inr ha)⟩
  · obtain ⟨hbusy, hwait, hhost, -⟩ := hostWrite_busy_keeps (s := { s with host := rest }) off v hb
    refine ⟨hbusy, hwait, fun a ha => hin a ?_⟩
    rw [hhost] at ha
    simp [hh, ha]

theorem run_succ_of_step (M : Host.Core) {s t : M.State} (k : Nat) (h : M.step s = .next t) :
    M.run (k + 1) s = M.run k t := by rw [Host.Core.run, h]

/-- Settles O10, by induction on the cycles still to wait: each turn of the host takes one, and then the completion is due. -/
theorem busyBlockCompletesInBoundedSteps : Obligations.BusyBlockCompletesInBoundedSteps := by
  intro s hb hin
  induction hn : s.wait generalizing s with
  | zero =>
    obtain ⟨u, c, hstep⟩ := step_of_due_completes (completionDue_iff.2 ⟨hb, hn⟩)
    exact ⟨1, le_rfl, u.complete c, run_succ_of_step Sys2Proof.core 0 hstep, u.busy_complete c⟩
  | succ n ih =>
    obtain ⟨t, hstep, hbusy, hwait, hin'⟩ := hostStep_of_busy (s := s.tick) hb hin
    have hwait' : t.wait = n := by
      rw [hwait, tick_of_busy hb, hn]
      rfl
    obtain ⟨k, hk, u, hrun, hidle⟩ := ih t hbusy hin' hwait'
    refine ⟨k + 1, by omega, u, ?_, hidle⟩
    rw [run_succ_of_step Sys2Proof.core k ((step_of_not_due (completionDue_of_waiting (by omega))).trans hstep), hrun]

end Sys2Proof.Machine
end

section
/-! SCRESET (O30), BUILDA (O44), and how every instruction completes (O9). -/

namespace Sys2Proof.Machine

/-! ### SCRESET -/

/-- 44_security_context.md R180: the session's keys, MACs and cryptograms zeroed and the role's random drawn. -/
def State.withFreshSession (s : State) : State :=
  { s with
    sEnc := .zero, sMac1 := .zero, sMac2 := .zero, cmac := .zero, rmac := .zero, ccrypt := .zero, scrypt := .zero
    rndA := if s.responder then s.rndA else s.draw
    rndB := if s.responder then s.draw else s.rndB
    rng := s.rng + 1 }

/-- R180: with ESTABLISHED cleared and DEFKEY computed. -/
def State.contextReset (s : State) : State :=
  (s.withFreshSession.setEstablished false).setDefkey (s.key == Config.defaultKey)

section
variable (s : State)

theorem exec_screset : exec .screset s = finish s.contextReset := rfl

/-- The random source's own step set aside, only the session's registers change. -/
theorem unchanged_withFreshSession (flags : List Flag) :
    Unchanged [.sEnc, .sMac1, .sMac2, .cmac, .rmac, .ccrypt, .scrypt, .rndA, .rndB] flags noStore s
      { s.withFreshSession with rng := s.rng } :=
  .of_regByte fun r hr i => by
    cases r
    case sEnc | sMac1 | sMac2 | cmac | rmac | ccrypt | scrypt | rndA | rndB => simp at hr
    all_goals rfl

/-- A completion does not touch the random source. -/
theorem Unchanged.complete_withRng {regs : List Reg} {flags : List Flag} {st : Nat → Prop} {s t : State} (c : Byte)
    (h : Unchanged regs flags st s { t with rng := s.rng }) :
    Unchanged regs flags st s { t.complete c with rng := s.rng } := h.complete c

/-- Nor does a bit of STATUS written. -/
theorem Unchanged.setStatusBit_withRng {regs : List Reg} {flags : List Flag} {st : Nat → Prop} {s t : State} (f : Flag)
    (v : Bool) (hf : f ∈ flags) (h : Unchanged regs flags st s { t with rng := s.rng }) :
    Unchanged regs flags st s { t.setStatusBit f.bit v with rng := s.rng } := h.setStatusBit f v hf

theorem unchanged_contextReset :
    Unchanged [.sEnc, .sMac1, .sMac2, .cmac, .rmac, .ccrypt, .scrypt, .rndA, .rndB] [.established, .defkey] noStore s
      { s.contextReset with rng := s.rng } :=
  ((unchanged_withFreshSession s _).setStatusBit_withRng .established false (by simp)).setStatusBit_withRng .defkey
    (s.key == Config.defaultKey) (by simp)

theorem established_contextReset : s.contextReset.established = false := by simp [State.contextReset]

/-- 00_scope.md R6: DEFAULT_KEY is 30 31 to 3F. -/
theorem defaultKey_eq : Config.defaultKey = Block.ofBytes ((List.range 16).map fun i => BitVec.ofNat 8 (0x30 + i)) := by
  decide

theorem defkey_contextReset : s.contextReset.defkey = true ↔ s.key = Config.defaultKey := by simp [State.contextReset]

theorem err_contextReset : s.contextReset.err = s.err :=
  (State.err_setStatusBit _ _ _ (by decide)).trans (State.err_setStatusBit s.withFreshSession _ _ (by decide))

end

/-- Settles O30: the session's fields are read off the update, the two flags off their bits. -/
theorem scresetClearsTheSessionAndDraws : Obligations.ScresetClearsTheSessionAndDraws := by
  intro s
  refine ⟨_, exec_screset s, rfl, rfl, rfl, rfl, rfl, rfl, rfl, fun hr => ?_, fun hr => ?_, ?_, ?_, rfl,
    succeeds_complete s _ (err_contextReset s), ?_⟩
  · exact ⟨if_neg (by simp [hr]), if_neg (by simp [hr])⟩
  · exact ⟨if_pos hr, if_pos hr⟩
  · rw [State.established_complete, established_contextReset]
  · rw [State.defkey_complete, defkey_contextReset]
    exact iff_of_eq (congrArg _ defaultKey_eq)
  · exact (unchanged_contextReset s).complete_withRng _

/-! ### BUILDA -/

/-- A state with the type and the length of the security block to build (46_framer.md R243). -/
def State.withScb (s : State) (scs scblen : Byte) : State := { s with scs := scs, scblen := scblen }

section
variable (s : State) (scs scblen scs' scblen' : Byte)

/-- The checks of `build_frame` read the type and the length they are given, not SCS and SCBLEN. -/
theorem buildError_withScb : (s.withScb scs scblen).buildError scs' scblen' = s.buildError scs' scblen' := rfl

theorem frameMac_withScb : (s.withScb scs scblen).frameMac scs' scblen' = s.frameMac scs' scblen' := by
  rw [State.frameMac, State.frameMac]
  cases scsDir scs' <;> rfl

theorem frame_withScb : (s.withScb scs scblen).frame scs' scblen' = s.frame scs' scblen' := by
  rw [State.frame, State.frame, frameMac_withScb]
  rfl

theorem withFrame_withScb :
    (s.withScb scs scblen).withFrame scs' scblen' = (s.withFrame scs' scblen').withScb scs scblen := by
  rw [State.withFrame, State.withFrame, frame_withScb, frameMac_withScb]
  cases scsHasMac scs'
  · rfl
  · cases scsDir scs' <;> rfl

end

section
variable (s : State)

/-- 46_framer.md R241. -/
theorem autoScs_eq : s.autoScs = if s.established = false then 0x00
    else if s.ctrl.getLsbD 1 = false then (if s.dlen.toNat = 0 then 0x15 else 0x17)
    else (if s.dlen.toNat = 0 then 0x16 else 0x18) := by
  have hdlen : s.dlen = 0 ↔ s.dlen.toNat = 0 := BitVec.toNat_inj.symm
  simp only [State.autoScs, State.responder, hdlen]
  cases s.ctrl.getLsbD 1 <;> rfl

theorem autoScblen_eq : s.autoScblen = if s.autoScs = 0 then s.scblen else 2 := ite_not _ _ _

/-- R241: while not established BUILDA builds no security block, and otherwise one of the MAC types. -/
theorem autoScs_cases : s.established = false ∧ s.autoScs = 0x00 ∨
    s.established = true ∧ scsHasMac s.autoScs = true := by
  rw [autoScs_eq]
  cases s.established
  · exact .inl ⟨rfl, rfl⟩
  · refine .inr ⟨rfl, ?_⟩
    simp only [Bool.true_eq_false, if_false]
    split <;> split <;> decide

end

section
variable {s : State}

/-- R241: the checks pass for the type that BUILDA chooses, but for the data's length. -/
theorem buildError_auto (hfit : s.dlen.toNat ≤ 1024) : s.buildError s.autoScs s.autoScblen = none := by
  rw [buildError_of_dataInRange hfit]
  obtain ⟨-, hscs⟩ | ⟨hest, hmac⟩ := autoScs_cases s
  · rw [hscs]
    rfl
  · have h0 : s.autoScs ≠ 0 := ne_of_apply_ne scsHasMac (by rw [hmac]; decide)
    have hlen : scbLenValid s.autoScblen = true := by
      rw [autoScblen_eq, if_neg h0]
      rfl
    rw [if_neg (not_badscs_iff.2 (.inr ⟨scsValid_of_hasMac hmac, hlen⟩)), if_neg (by simp [hest])]

theorem exec_builda_of_error {e : ErrCode} (h : s.buildError s.autoScs s.autoScblen = some e) :
    exec .builda s = raiseError e s := by
  rw [exec, execBuilda, h]

theorem exec_builda_of_none (h : s.buildError s.autoScs s.autoScblen = none) :
    exec .builda s = finish ((s.withFrame s.autoScs s.autoScblen).withScb s.autoScs s.autoScblen) := by
  rw [exec, execBuilda, h]
  rfl

/-- R243: BUILD, given a type and a length in SCS and SCBLEN, builds as from any other SCS and SCBLEN. -/
theorem exec_build_withScb {scs scblen : Byte} (h : s.buildError scs scblen = none) :
    exec .build (s.withScb scs scblen) = finish ((s.withFrame scs scblen).withScb scs scblen) := by
  have hb : (s.withScb scs scblen).buildError (s.withScb scs scblen).scs (s.withScb scs scblen).scblen = none := h
  rw [exec, execBuild, hb, ← withFrame_withScb]
  rfl

end

/-- Settles O44: BUILDA and BUILD build the same frame, since the frame does not depend on what SCS and SCBLEN held before. -/
theorem buildaChoosesTheTypeAndBuilds : Obligations.BuildaChoosesTheTypeAndBuilds := by
  refine fun s => ⟨fun hout => ?_, fun hfit => ?_⟩
  · have hrange : exec .builda s = raiseError .range s := exec_builda_of_error (if_pos ((dataOutOfRange_iff s).2 hout))
    exact ⟨_, hrange, failsCleanly_raise .range s⟩
  · have hnone := buildError_auto hfit
    intro scs scblen
    have hscs : s.autoScs = scs := autoScs_eq s
    have hscblen : s.autoScblen = scblen := by rw [autoScblen_eq, hscs]
    rw [← hscs, ← hscblen]
    exact ⟨_, exec_builda_of_none hnone, exec_build_withScb hnone, rfl, rfl,
      succeeds_complete s _ (err_withFrame s _ _)⟩

/-! ### Every instruction completes -/

/-- The state `t` is the completion of one that has the OPC of `s` and, but for SRESET, its ERR (40_control.md R111). -/
inductive CompletesFrom (i : Instr) (s t : State) : Prop where
  | mk (u : State) (c : Byte) (ht : t = u.complete c) (hopc : u.opc = s.opc) (herr : i ≠ .sreset → u.err = s.err)

section
variable {i : Instr} {s t u : State} {c : Byte}

/-- A completion of a state with the STATUS of `s`. -/
theorem CompletesFrom.of_status (ht : t = u.complete c) (hopc : u.opc = s.opc := by rfl)
    (hstatus : u.status = s.status := by rfl) : CompletesFrom i s t :=
  ⟨u, c, ht, hopc, fun _ => by rw [State.err, hstatus, State.err]⟩

/-- The same, with MATCH written. -/
theorem CompletesFrom.of_setMatched {v : Bool} (ht : t = (u.setMatched v).complete c) (hopc : u.opc = s.opc := by rfl)
    (hstatus : u.status = s.status := by rfl) : CompletesFrom i s t := by
  have herr : (u.setMatched v).err = u.err := by simp
  exact ⟨_, c, ht, hopc, fun _ => by rw [herr, State.err, hstatus, State.err]⟩

theorem State.opc_setAccumulator (s : State) (d : Dir) (b : Block) : (s.setAccumulator d b).opc = s.opc := by
  cases d <;> rfl

theorem State.opc_withFrame (s : State) (scs scblen : Byte) : (s.withFrame scs scblen).opc = s.opc := by
  unfold State.withFrame
  cases scsHasMac scs
  exacts [rfl, s.opc_setAccumulator _ _]

theorem State.opc_withParsed (s : State) (y : Layout) : (s.withParsed y).opc = s.opc := by
  unfold State.withParsed
  cases scsHasMac y.scs
  exacts [rfl, s.opc_setAccumulator _ _]

theorem CompletesFrom.of_macSpan {d : Dir} (h : macSpan d s = .next t) : CompletesFrom i s t := by
  obtain ⟨-, ht⟩ | ⟨-, -, ht⟩ | ⟨-, -, ht⟩ := macSpan_cases h
  · exact .of_status ht
  · exact .of_status ht
  · obtain ⟨-, -, -, hstatus, -⟩ := s.setAccumulator_keeps d (s.dirMac d s.span)
    exact .of_status ht (s.opc_setAccumulator _ _) hstatus

theorem CompletesFrom.of_cipherData {f : Bytes → Bytes} (h : cipherData f s = .next t) : CompletesFrom i s t := by
  obtain ⟨e, ht, -⟩ | ⟨-, -, -, ht⟩ | ⟨-, -, -, -, ht⟩ := cipherData_cases h
  all_goals exact .of_status ht

theorem exec_completesFrom (h : exec i s = .next t) : CompletesFrom i s t := by
  cases i
  case sreset => exact ⟨_, _, finish_eq_next.1 h, rfl, fun hne => absurd rfl hne⟩
  case screset => exact ⟨_, _, finish_eq_next.1 h, rfl, fun _ => err_contextReset s⟩
  case nop | aeseKey | aeseEnc | aeseMac1 | aeseMac2 | aesdKey | aesdEnc | aesdMac1 | aesdMac2 | derive | crypt =>
    exact .of_status (finish_eq_next.1 h)
  case adoptrmac => exact ⟨_, _, finish_eq_next.1 h, rfl, fun _ => err_establishedWith s s.blk⟩
  case crc16 => obtain ⟨-, ht⟩ | ⟨-, ht⟩ := execCrc16_cases h <;> exact .of_status ht
  case cksum8 => obtain ⟨-, ht⟩ | ⟨-, ht⟩ := execCksum8_cases h <;> exact .of_status ht
  case vcrc16 => obtain ⟨e, ht, -⟩ | ⟨-, -, c, -, -, -, ht⟩ := execVcrc16_cases h <;> exact .of_setMatched ht
  case vcksum8 => obtain ⟨e, ht, -⟩ | ⟨-, -, c, -, -, ht⟩ := execVcksum8_cases h <;> exact .of_setMatched ht
  case pad => obtain ⟨-, ht⟩ | ⟨-, ht⟩ := execPad_cases h <;> exact .of_status ht
  case unpad => obtain ⟨-, ht⟩ | ⟨-, -, ht⟩ | ⟨-, n, -, ht⟩ := execUnpad_cases h <;> exact .of_status ht
  case vccrypt => obtain ⟨-, ht⟩ | ⟨-, ht⟩ := execVccrypt_cases h <;> exact .of_setMatched ht
  case vscrypt =>
    obtain ⟨-, ht⟩ | ⟨-, ht⟩ := execVscrypt_cases h
    · exact .of_setMatched ht
    · exact ⟨_, _, ht, rfl, fun _ =>
        (State.err_setStatusBit _ _ _ (by decide)).trans (err_establishedWith s s.initialRmac)⟩
  case macc | macr => exact .of_macSpan h
  case encc | encr | decc | decr => exact .of_cipherData h
  case build =>
    obtain ⟨-, -, -, hstatus, -⟩ := s.withFrame_keeps s.scs s.scblen
    obtain ⟨e, -, ht⟩ | ⟨-, ht⟩ := execBuild_cases h
    exacts [.of_status ht, .of_status ht (s.opc_withFrame _ _) hstatus]
  case builda =>
    obtain ⟨-, -, -, hstatus, -⟩ := s.withFrame_keeps s.autoScs s.autoScblen
    obtain ⟨e, -, ht⟩ | ⟨-, ht⟩ := execBuilda_cases h
    exacts [.of_status ht, .of_status ht (s.opc_withFrame _ _) hstatus]
  case parse =>
    obtain ⟨e, -, ht⟩ | ⟨y, -, -, ht⟩ | ⟨y, -, -, ht⟩ := execParse_cases h
    · exact .of_setMatched ht
    all_goals
      obtain ⟨-, -, -, hstatus, -⟩ := s.withParsed_keeps y
      exact .of_setMatched ht (s.opc_withParsed y) hstatus

end

/-- Settles O9: a completion of any state clears BUSY and sets DONE; what stood before it is the OPC and the ERR of `s`. -/
theorem everyInstructionCompletes : Obligations.EveryInstructionCompletes := by
  intro i s
  obtain ⟨v, code, hv, hle⟩ := (exec_ends i s).next
  refine ⟨_, hv, v.busy_complete code, v.done_complete code, ?_, hle, fun hne => ?_, fun hi h0 => ?_⟩
  all_goals obtain ⟨u, c, hu, hopc, herr⟩ := exec_completesFrom hv
  · rw [hu, State.complete_opc, hopc]
  · rw [State.err_complete, Bool.or_eq_true, bne_iff_ne]
    exact .inr hne
  · rw [hu, State.complete_errcode] at h0
    rw [hu, State.err_complete, herr hi, h0, bne_self_eq_false, Bool.or_false]

end Sys2Proof.Machine
end
